-- ==== Sys2Proof/Word.lean ====
section
/-! DEFINITION. The words of the block: bytes, command words, identifiers, bit positions (spec 00_scope R9). -/

namespace Sys2Proof

/-- A byte; bit 0 is its least significant bit (R9). -/
abbrev Byte := BitVec 8

/-- A 64-bit ROM identifier as an integer (R66). -/
abbrev RomId := BitVec 64

/-- The 12-bit host command word `CW` (R109). -/
abbrev CmdWord := BitVec 12

/-- A ROM bit position or a value compared with one: 7 bits hold 0..65 (R20, R26). -/
abbrev Pos := BitVec 7

/-- The working ROM buffer `ROM[0..7]` (R21). -/
abbrev Rom := Vector Byte 8

/-- A natural number read as a byte, its low 8 bits. -/
def Byte.ofNat (n : Nat) : Byte := BitVec.ofNat 8 n

end Sys2Proof
end

