-- ==== Sys2Proof/Syntax.lean ====
section
/-! DEFINITION. The syntax: one constructor per row of spec/opcode_table.json, the frames and events of the link,
and the words of the four encoding layers (spec 30_encoding R100). -/

namespace Sys2Proof

/-- The bytes of one `LinkWrite`: a command code and, for format B2, its parameter (R10, R101). -/
structure Frame where
  code  : Byte
  param : Option Byte
  deriving DecidableEq, Repr

/-- One event of the block's trace: a call of an environment primitive, with the link address it goes to
and what was sent or answered (R10). -/
inductive Event where
  | linkWrite (addr : Nat) (frame : Frame)
  | linkRead (addr : Nat) (answer : Byte)
  | tick (sample : Nat)
  deriving DecidableEq, Repr

/-- The instructions. Host operations carry all of `ARG8`, the bits an operation ignores included (R109, R110, R114);
bridge commands with a parameter carry it (R102). Channel-select's is 0 where none is given: the table has no bits for it
(log entry 9). -/
inductive Instr where
  -- host operations (R110)
  | owReset (arg : Byte)
  | busyWait (arg : Byte)
  | readReg (arg : Byte)
  | writeByte (arg : Byte)
  | readByte (arg : Byte)
  | triplet (arg : Byte)
  | devReset (arg : Byte)
  | cfgWrite (arg : Byte)
  | searchFirst (arg : Byte)
  | searchNext (arg : Byte)
  | enumerate (arg : Byte)
  | regLookup (arg : Byte)
  | regGetall (arg : Byte)
  -- reserved host operation codes (R114)
  | reserved0 (arg : Byte)
  | reservedE (arg : Byte)
  | reservedF (arg : Byte)
  -- bridge commands (R102)
  | brDeviceReset
  | brSetReadPointer (param : Byte)
  | brConfigWrite (param : Byte)
  | brChannelSelect (param : Byte := 0)
  | brBusReset
  | brWriteByte (param : Byte)
  | brReadByte
  | brTriplet (param : Byte)
  -- pointer codes (R103)
  | ptrStatus
  | ptrData
  | ptrChannel
  | ptrConfig
  -- bus-level commands (R104)
  | busSearch
  | busMatchRom
  deriving DecidableEq, Repr

/-- A word of one of the four layers. The same byte means different things in different places, so a word carries
the place it stands in (R103, R118). -/
inductive Code where
  | hostWord (w : CmdWord)
  | bridge (f : Frame)
  | pointer (b : Byte)
  | bus (b : Byte)
  deriving DecidableEq, Repr

/-- Why a word is refused by the decoder. -/
inductive DecodeError where
  /-- a byte in the command place that is none of the eight codes (R114) -/
  | unknownCommand
  /-- no byte at all, or a B2 code without its parameter (R115) -/
  | missingByte
  /-- bytes after the command's last one (R115) -/
  | trailingBytes
  /-- a byte in the pointer place that is none of the four codes (R61) -/
  | unknownPointer
  /-- a byte in the bus-command place that is neither 0xF0 nor 0x55 (R104) -/
  | unknownBusCommand
  deriving DecidableEq, Repr

end Sys2Proof
end

