-- ==== Sys2Proof/WellFormed.lean ====
section
/-! DEFINITION. Which instructions the block can form: the parameter bytes R106, R107 and R112 allow.
Every other constructor admits every operand (R114: ignored bits have any value, pointer codes are not checked). -/

namespace Sys2Proof

/-- A byte `CfgEncode` can give: bit 1 is 0 and bits 7..4 are the complements of bits 3..0 (R106). -/
def Byte.isConfig (v : Byte) : Bool :=
  !v.getLsbD 1 && (v.extractLsb' 4 4 == ~~~ v.extractLsb' 0 4)

/-- A direction byte (R112): bit 7 carries the direction and the other bits are 0. -/
def Byte.isDirection (v : Byte) : Bool := v.extractLsb' 0 7 == 0

/-- The instruction is one the encodings of the spec allow. -/
def Instr.wellFormed : Instr → Bool
  | .brConfigWrite v => v.isConfig
  | .brTriplet v => v.isDirection
  | .owReset _ | .busyWait _ | .readReg _ | .writeByte _ | .readByte _ | .triplet _ | .devReset _ | .cfgWrite _
  | .searchFirst _ | .searchNext _ | .enumerate _ | .regLookup _ | .regGetall _
  | .reserved0 _ | .reservedE _ | .reservedF _
  | .brDeviceReset | .brSetReadPointer _ | .brChannelSelect _ | .brBusReset | .brWriteByte _ | .brReadByte
  | .ptrStatus | .ptrData | .ptrChannel | .ptrConfig | .busSearch | .busMatchRom => true

end Sys2Proof
end

