-- ==== Sys2Proof/Decode.lean ====
section
/-! DEFINITION. The decoder of the four layers (spec 30_encoding R100 to R115), total and rejecting by name, and after it
the encoder from the same tables. -/

namespace Sys2Proof

/-- `CW[11:8]`, the operation code (R109). -/
def opField (w : CmdWord) : BitVec 4 := w.extractLsb' 8 4

/-- `CW[7:0]`, the operand `ARG8` (R109). -/
def arg8Field (w : CmdWord) : Byte := w.extractLsb' 0 8

/-- A host command word from its two fields (R109). -/
def hostWordOf (op : BitVec 4) (arg : Byte) : CmdWord := op ++ arg

/-- The host operation of a command word; all sixteen codes have one (R110, R114). -/
def decodeHostWord (w : CmdWord) : Instr :=
  let a := arg8Field w
  match (opField w).toNat with
  | 0x1 => .owReset a
  | 0x2 => .busyWait a
  | 0x3 => .readReg a
  | 0x4 => .writeByte a
  | 0x5 => .readByte a
  | 0x6 => .triplet a
  | 0x7 => .devReset a
  | 0x8 => .cfgWrite a
  | 0x9 => .searchFirst a
  | 0xA => .searchNext a
  | 0xB => .enumerate a
  | 0xC => .regLookup a
  | 0xD => .regGetall a
  | 0x0 => .reserved0 a
  | 0xE => .reservedE a
  | _   => .reservedF a

/-- The bytes of a frame in the order they are sent (R101). -/
def Frame.bytes (f : Frame) : List Byte := f.code :: f.param.toList

/-- Does a parameter byte follow this command code? `none`: not one of the eight codes (R102, R115). R102 says from general
knowledge that channel-select has a parameter and does not state its format (PRESUMED, log entry 9). -/
def takesParameter (code : Byte) : Option Bool :=
  if code = 0xF0 ∨ code = 0xB4 ∨ code = 0x96 then some false
  else if code = 0xE1 ∨ code = 0xD2 ∨ code = 0xA5 ∨ code = 0x78 ∨ code = 0xC3 then some true
  else none

/-- The bridge command of a B1 code (R102). -/
def shortCommand (code : Byte) : Except DecodeError Instr :=
  if code = 0xF0 then .ok .brDeviceReset
  else if code = 0xB4 then .ok .brBusReset
  else if code = 0x96 then .ok .brReadByte
  else .error .unknownCommand

/-- The bridge command of a B2 code with its parameter (R102). -/
def longCommand (code param : Byte) : Except DecodeError Instr :=
  if code = 0xE1 then .ok (.brSetReadPointer param)
  else if code = 0xD2 then .ok (.brConfigWrite param)
  else if code = 0xA5 then .ok (.brWriteByte param)
  else if code = 0x78 then .ok (.brTriplet param)
  else if code = 0xC3 then .ok (.brChannelSelect param)
  else .error .unknownCommand

/-- The bridge command at the head of a list of bytes, with the bytes after it; the code decides the length (R115). -/
def decodeBytes : List Byte → Except DecodeError (Instr × List Byte)
  | [] => .error .missingByte
  | code :: rest =>
    match takesParameter code with
    | none => .error .unknownCommand
    | some false => (shortCommand code).map (·, rest)
    | some true =>
      match rest with
      | [] => .error .missingByte
      | param :: rest' => (longCommand code param).map (·, rest')

/-- The bridge command of one `LinkWrite`, which holds exactly one (R101). -/
def decodeFrame (f : Frame) : Except DecodeError Instr :=
  match decodeBytes f.bytes with
  | .error e => .error e
  | .ok (i, []) => .ok i
  | .ok (_, _ :: _) => .error .trailingBytes

/-- The register a pointer code selects (R103). -/
def decodePointer (b : Byte) : Except DecodeError Instr :=
  if b = 0xF0 then .ok .ptrStatus
  else if b = 0xE1 then .ok .ptrData
  else if b = 0xD2 then .ok .ptrChannel
  else if b = 0xC3 then .ok .ptrConfig
  else .error .unknownPointer

/-- The bus-level command of a byte the slaves receive (R104). -/
def decodeBus (b : Byte) : Except DecodeError Instr :=
  if b = 0xF0 then .ok .busSearch
  else if b = 0x55 then .ok .busMatchRom
  else .error .unknownBusCommand

/-- The decoder: a word with its place gives an instruction or a named refusal. -/
def decode : Code → Except DecodeError Instr
  | .hostWord w => .ok (decodeHostWord w)
  | .bridge f => decodeFrame f
  | .pointer b => decodePointer b
  | .bus b => decodeBus b

/-- The encoder, from the tables of R102, R103, R104 and R110. -/
def encode : Instr → Code
  | .reserved0 a => .hostWord (hostWordOf 0x0 a)
  | .owReset a => .hostWord (hostWordOf 0x1 a)
  | .busyWait a => .hostWord (hostWordOf 0x2 a)
  | .readReg a => .hostWord (hostWordOf 0x3 a)
  | .writeByte a => .hostWord (hostWordOf 0x4 a)
  | .readByte a => .hostWord (hostWordOf 0x5 a)
  | .triplet a => .hostWord (hostWordOf 0x6 a)
  | .devReset a => .hostWord (hostWordOf 0x7 a)
  | .cfgWrite a => .hostWord (hostWordOf 0x8 a)
  | .searchFirst a => .hostWord (hostWordOf 0x9 a)
  | .searchNext a => .hostWord (hostWordOf 0xA a)
  | .enumerate a => .hostWord (hostWordOf 0xB a)
  | .regLookup a => .hostWord (hostWordOf 0xC a)
  | .regGetall a => .hostWord (hostWordOf 0xD a)
  | .reservedE a => .hostWord (hostWordOf 0xE a)
  | .reservedF a => .hostWord (hostWordOf 0xF a)
  | .brDeviceReset => .bridge { code := 0xF0, param := none }
  | .brSetReadPointer p => .bridge { code := 0xE1, param := some p }
  | .brConfigWrite p => .bridge { code := 0xD2, param := some p }
  | .brChannelSelect p => .bridge { code := 0xC3, param := some p }
  | .brBusReset => .bridge { code := 0xB4, param := none }
  | .brWriteByte p => .bridge { code := 0xA5, param := some p }
  | .brReadByte => .bridge { code := 0x96, param := none }
  | .brTriplet p => .bridge { code := 0x78, param := some p }
  | .ptrStatus => .pointer 0xF0
  | .ptrData => .pointer 0xE1
  | .ptrChannel => .pointer 0xD2
  | .ptrConfig => .pointer 0xC3
  | .busSearch => .bus 0xF0
  | .busMatchRom => .bus 0x55

/-- The bytes of the bridge command whose code byte alone the table numbers. Channel-select's row has eight bits, so its
parameter lies above them and is 0 (log entries 9, 10). -/
def loneCommand (code : Byte) : Frame := { code := code, param := if code = 0xC3 then some 0 else none }

/-- The place and the bytes of a word that spec/opcode_table.json numbers. Sixteen or twelve bits: a host command word
when bits 15..12 are 0, else a two-byte frame whose first byte is bits 15..8, as the table's B2 rows say. Eight bits: the
table does not say which place the byte stands in, so the code of an eight-bit command row is read in the command place, else
a pointer code in the pointer place, else a bus command (DESIGN CHOICE, log entry 10). -/
def tableCode (nbits w : Nat) : Code :=
  if nbits ≤ 8 then
    let b := Byte.ofNat w
    match decodeFrame (loneCommand b), decodePointer b, decodeBus b with
    | .ok _, _, _ => .bridge (loneCommand b)
    | .error _, .ok _, _ => .pointer b
    | .error _, .error _, .ok _ => .bus b
    | .error _, .error _, .error _ => .bridge (loneCommand b)
  else if w < 0x1000 then .hostWord (BitVec.ofNat 12 w)
  else .bridge { code := Byte.ofNat (w / 256), param := some (Byte.ofNat w) }

/-- The instruction the decoder reads from a word numbered as spec/opcode_table.json numbers it. -/
def decodeTableWord (nbits w : Nat) : Option Instr := (decode (tableCode nbits w)).toOption

end Sys2Proof
end

