-- ==== Sys2Proof/Config.lean ====
section
/-! DEFINITION. The parameters of the block (spec 00_scope R6) and the free values of its environment (R10).
An `opaque` here has no body: no proof can see its value, so what is proved holds for every value. -/

namespace Sys2Proof

/-- Bytes in a ROM identifier (R6). -/
def Config.romBytes : Nat := 8

/-- Bit positions walked per search step (R6). -/
def Config.romBits : Nat := 64

/-- `REG_N`, the registry's capacity, 16 for this hardware (R6, D18). -/
def Config.regN : Nat := 16

/-- By how much `T_BUSY` exceeds its least value 1 (R6: OPEN). -/
opaque Config.busySlack : Nat

/-- By how much `T_RESET` exceeds its least value `T_BUSY + 1` (R6: OPEN). -/
opaque Config.resetSlack : Nat

/-- `T_BUSY`, the busy timeout budget in ticks; only `T_BUSY >= 1` is known (R6, D4). -/
def Config.tBusy : Nat := Config.busySlack + 1

/-- `T_RESET`, the presence timeout budget in ticks; only `T_RESET > T_BUSY` is known (R6, D4). -/
def Config.tReset : Nat := Config.tBusy + Config.resetSlack + 1

/-- `BRIDGE_ADDR`, the bridge's address on the Link Transport (R6, D3). -/
opaque Config.bridgeAddr : Nat

/-- The byte an unconstrained environment answers to a `LinkRead`, given the events before it (R10, R70). -/
opaque Config.freeAnswer : List Event → Byte

/-- By how much the tick source has advanced since its last sample, given the events before it (R10, R254). -/
opaque Config.freeTickStep : List Event → Nat

end Sys2Proof
end

