-- ==== Sys2Proof/Machine/State.lean ====
section
/-! DEFINITION. The state of the block and of its environment as plain data (spec 10_state R20 to R41, 20_memory R82),
the reasons a step can stop, and the state after power-on (70_reset_and_hazards R270). -/

namespace Sys2Proof.Machine

/-- Program points of `ReadRegister` (R33, R150). -/
inductive ReadPt where
  | rrSel | rrRd
  deriving DecidableEq, Repr

/-- Program points of `Poll` (R33, R152); `pSample` holds the point of the status read it is making. -/
inductive PollPt where
  | pT0 | pSample (r : ReadPt) | pTest | pTime | pOk | pTimeout
  deriving DecidableEq, Repr

/-- Program points of `Cmd` (R33, R154). -/
inductive CmdPt where
  | cPre (p : PollPt) | cIssue | cPost (p : PollPt) | cOk | cFail
  deriving DecidableEq, Repr

/-- Program points of `reset()` (R33, R140). -/
inductive ResetPt where
  | brIssue | brPpd (p : PollPt) | brBusy (p : PollPt) | brTrue | brFalse
  deriving DecidableEq, Repr

/-- Program points of `search_step()` (R33, R182). -/
inductive SearchPt where
  | sFresh | sLdf | sReset (r : ResetPt) | sCmd (c : CmdPt) | sInit | sDir | sTrip (c : CmdPt) | sDecode | sAbsent
  | sZero | sStore | sAdv | sFin | sAllzero | sReg | sFound | sFail
  deriving DecidableEq, Repr

/-- Program points of `enumerate()` (R33, R197). -/
inductive EnumPt where
  | eFirst (p : SearchPt) | eNext (p : SearchPt) | eDone
  deriving DecidableEq, Repr

/-- Program points of the registry reads (R33, R222, R223). -/
inductive ScanPt where
  | gScan | gDone
  deriving DecidableEq, Repr

/-- The control state `FSM` (R33): which operation runs, and the program point it is at, the return points of the
calls it is in being the constructors around that point. -/
inductive Fsm where
  | idle | dispatch | complete
  | owReset (p : ResetPt)
  | busyWait (p : PollPt)
  | readRegWait (p : PollPt)
  | readReg (p : ReadPt)
  | writeByte (p : CmdPt)
  | readByte (p : CmdPt)
  | readByteData (p : ReadPt)
  | triplet (p : CmdPt)
  | devReset (p : CmdPt)
  | cfgWrite (p : CmdPt)
  | cfgReadBack (p : ReadPt)
  | cfgCompare
  | searchFirst (p : SearchPt)
  | searchNext (p : SearchPt)
  | enumerate (p : EnumPt)
  | regLookup (p : ScanPt)
  | regGetall (p : ScanPt)
  deriving DecidableEq, Repr

/-- The thirteen host operations (R110). -/
inductive Op where
  | owReset | busyWait | readReg | writeByte | readByte | triplet | devReset | cfgWrite
  | searchFirst | searchNext | enumerate | regLookup | regGetall
  deriving DecidableEq, Repr

/-- The three failure kinds (R240). -/
inductive Failure where
  | timeout | busAbsent | configMismatch
  deriving DecidableEq, Repr

/-- The values of `RES_CODE` (R111); their numbers are `ResCode.bits`. -/
inductive ResCode where
  | none | ok | found | exhausted | timeout | absent | mismatch | notFound | illegal
  deriving DecidableEq, Repr

/-- Search State (R21 to R24). -/
structure SearchState where
  rom                   : Rom
  lastDiscrepancy       : Pos
  lastFamilyDiscrepancy : Pos
  lastDeviceFlag        : Bool
  deriving DecidableEq, Repr

/-- Walk temporaries (R26). -/
structure Walk where
  n        : Pos
  lastZero : Pos
  byteIdx  : BitVec 4
  mask     : Byte
  d        : Bool
  deriving DecidableEq, Repr

/-- Device Registry (R28, R29). -/
structure Registry where
  slots : Vector RomId 16
  count : BitVec 5
  deriving DecidableEq, Repr

/-- Host interface registers (R35). `STATUS.run` is not stored: it is `FSM != IDLE`. -/
structure Port where
  cw       : CmdWord
  argId    : RomId
  resCode  : ResCode
  resByte  : Byte
  resId    : RomId
  resCount : BitVec 5
  deriving DecidableEq, Repr

/-- Control: `FSM` (R33), the operands latched at acceptance (R34, R35, R76), the argument of the running `Cmd` (R154). -/
structure Control where
  fsm   : Fsm
  arg   : Byte
  argId : RomId
  cmd   : Frame
  deriving DecidableEq, Repr

/-- What the slaves are doing in E_IDEAL (R82). -/
inductive BusMode where
  | idle | search
  deriving DecidableEq, Repr

/-- The named variants of E_IDEAL (R88); E_EMPTY is `plain` with no device. -/
inductive IdealVariant where
  | plain
  | stuck
  | noDev (k : Nat)
  | badCfg (v : Byte)
  | low
  deriving DecidableEq, Repr

/-- State of the reference environment E_IDEAL (R82), with the ticks per `Tick()` call, the number of triplets
since power-on (for E_NODEV) and the variant. -/
structure Ideal where
  devices  : List RomId
  active   : List RomId
  mode     : BusMode
  pos      : Nat
  status   : Byte
  data     : Byte
  config   : Byte
  ptr      : Byte
  t        : Nat
  tickStep : Nat
  triplets : Nat
  variant  : IdealVariant
  deriving DecidableEq, Repr

/-- An unconstrained environment (R10): the `LinkRead` answers and the tick increments already decided, oldest first,
and the last tick sample. Past the lists they are the free values of Config. -/
structure Oracle where
  answers : List Byte
  steps   : List Nat
  now     : Nat
  deriving DecidableEq, Repr

/-- The environment: bridge, slaves and tick source (R7, R40). -/
inductive Env where
  | oracle (o : Oracle)
  | ideal (e : Ideal)
  deriving DecidableEq, Repr

/-- The link side: environment, trace of events (newest first), the latch `ReadRegister` fills (R150),
`SNAP` (R31) and `t0` (R32). -/
structure Link where
  env   : Env
  trace : List Event
  rd    : Byte
  snap  : Byte
  t0    : Nat
  deriving DecidableEq, Repr

/-- A write the host makes to the block (R35, R260). -/
inductive HostWrite where
  | cw (w : CmdWord)
  | argId (v : RomId)
  deriving DecidableEq, Repr

/-- The machine: the state of R20 and, beside it, the environment and the host's writes still to come. -/
structure State where
  search   : SearchState
  walk     : Walk
  registry : Registry
  port     : Port
  ctl      : Control
  link     : Link
  host     : List HostWrite
  deriving DecidableEq, Repr

/-- Why the machine stops with a fault. The spec has no fatal error (R240). -/
inductive Fault where
  /-- Raised by `step` when the running operation is to issue the bytes of its command latch and they are none of the
  eight bridge commands (R114: "the block has no path that could form one"). Safe: no run from reset reaches it. -/
  | noSuchCommand (e : DecodeError)
  deriving DecidableEq, Repr

/-- Why a request is refused. -/
inductive Refusal where
  /-- Raised by an arm of `exec` whose instruction has no meaning yet. Safe. -/
  | notModelled (mnemonic : String)
  /-- Raised by `exec` of a host operation, and by the host's write of `CW`, while another operation runs:
  R76 refuses the request and gives it no step. Safe. -/
  | requestWhileRunning
  /-- Raised by the host's read of a registry slot that does not exist (R64). Safe. -/
  | noSuchSlot
  deriving DecidableEq, Repr

/-- Power-on state (R270). The temporaries R270 leaves unspecified hold zeros (DESIGN CHOICE, log entry 1); the environment
is the oracle with nothing decided (log entries 2, 3), the trace is empty (R271) and no host write is waiting. -/
def State.reset : State where
  search := { rom := Vector.replicate 8 0, lastDiscrepancy := 0, lastFamilyDiscrepancy := 0, lastDeviceFlag := false }
  walk := { n := 0, lastZero := 0, byteIdx := 0, mask := 0, d := false }
  registry := { slots := Vector.replicate 16 0, count := 0 }
  port := { cw := 0, argId := 0, resCode := .none, resByte := 0, resId := 0, resCount := 0 }
  ctl := { fsm := .idle, arg := 0, argId := 0, cmd := { code := 0xF0, param := none } }
  link := { env := .oracle { answers := [], steps := [], now := 0 }, trace := [], rd := 0, snap := 0, t0 := 0 }
  host := []

end Sys2Proof.Machine
end

