-- ==== Sys2Proof/Machine/Operands.lean ====
section
/-! DEFINITION. Operand forms: what `ARG8` holds for each operation, the parameter bytes sent to the bridge, and the
arithmetic of walk positions and identifiers. -/

namespace Sys2Proof.Machine

/-- Operation codes (R110). -/
def Op.code : Op → BitVec 4
  | .owReset => 0x1
  | .busyWait => 0x2
  | .readReg => 0x3
  | .writeByte => 0x4
  | .readByte => 0x5
  | .triplet => 0x6
  | .devReset => 0x7
  | .cfgWrite => 0x8
  | .searchFirst => 0x9
  | .searchNext => 0xA
  | .enumerate => 0xB
  | .regLookup => 0xC
  | .regGetall => 0xD

/-- `BUSY_WAIT`: `ARG8` is the timeout in ticks (R153). -/
def timeoutOf (arg : Byte) : Nat := arg.toNat

/-- `TRIPLET`: bit 0 is the preferred direction, bits 7..1 are ignored (R110). -/
def directionOf (arg : Byte) : Bool := arg.getLsbD 0

/-- `REG_GETALL`: `ARG8` is the capacity (R223). -/
def capacityOf (arg : Byte) : Nat := arg.toNat

/-- `CFG_WRITE`: the four bits written, `(spd << 3) | (spu << 2) | apu`, from bits 3, 2, 0 of `ARG8` (R107, R110). -/
def configFlags (arg : Byte) : BitVec 4 := (arg.extractLsb' 0 4) &&& 0b1101#4

/-- The configuration byte of four flag bits: their complements above them (R107). -/
def configByte (f : BitVec 4) : Byte := ~~~f ++ f

/-- `CfgEncode(apu, spu, spd)` (R107). -/
def cfgEncode (apu spu spd : Bool) : Byte :=
  configByte (BitVec.ofBool spd ++ BitVec.ofBool spu ++ 0#1 ++ BitVec.ofBool apu)

/-- `TRIPLET_DIR_BYTE(d)` (R112, D9). -/
def tripletDirByte (d : Bool) : Byte := if d then 0x80 else 0x00

/-- Pointer codes (R103). -/
def statusPtr : Byte := 0xF0
def dataPtr : Byte := 0xE1
def channelPtr : Byte := 0xD2
def configPtr : Byte := 0xC3

/-- The 1-Wire search command (R104). -/
def searchCommand : Byte := 0xF0

/-- The 1-Wire match-ROM command (R104). -/
def matchRomCommand : Byte := 0x55

/-- Frames the block sends (R102). -/
def deviceResetFrame : Frame := { code := 0xF0, param := none }
def selectFrame (ptr : Byte) : Frame := { code := 0xE1, param := some ptr }
def configWriteFrame (v : Byte) : Frame := { code := 0xD2, param := some v }
def channelSelectFrame (v : Byte) : Frame := { code := 0xC3, param := some v }
def busResetFrame : Frame := { code := 0xB4, param := none }
def writeByteFrame (v : Byte) : Frame := { code := 0xA5, param := some v }
def readByteFrame : Frame := { code := 0x96, param := none }
def tripletFrame (v : Byte) : Frame := { code := 0x78, param := some v }

/-- Byte of `ROM` that holds walk position `n` (R65). -/
def byteIdxOf (n : Nat) : Nat := (n - 1) / 8

/-- Mask of walk position `n` inside its byte (R65). -/
def maskOf (n : Nat) : Byte := 1#8 <<< ((n - 1) % 8)

/-- A byte of the buffer by index; there are eight (R21). -/
def romByte (r : Rom) (i : Nat) : Byte := r[i]?.getD 0

/-- `RomToId`: byte 0 is the least significant byte (R66). -/
def romToId (r : Rom) : RomId := r[7] ++ r[6] ++ r[5] ++ r[4] ++ r[3] ++ r[2] ++ r[1] ++ r[0]

/-- `IdToRom` (R66). -/
def idToRom (id : RomId) : Rom :=
  #v[id.extractLsb' 0 8, id.extractLsb' 8 8, id.extractLsb' 16 8, id.extractLsb' 24 8,
     id.extractLsb' 32 8, id.extractLsb' 40 8, id.extractLsb' 48 8, id.extractLsb' 56 8]

/-- The bit of the buffer a byte index and a mask select: the path replay of R187. -/
def romBit (r : Rom) (i : Nat) (mask : Byte) : Bool := romByte r i &&& mask != 0

/-- The buffer with that bit written: the store of R191. -/
def romStore (r : Rom) (i : Nat) (mask : Byte) (w : Bool) : Rom :=
  r.setIfInBounds i (if w then romByte r i ||| mask else romByte r i &&& ~~~mask)

end Sys2Proof.Machine
end

