-- ==== Sys2Proof/Machine/Env.lean ====
section
/-! DEFINITION. The environment primitives (spec 00_scope R10): the unconstrained oracle, and the reference environment
E_IDEAL with its variants (20_memory R82 to R88), which is not part of the block. -/

namespace Sys2Proof.Machine

/-- E_IDEAL at power-on with a device list (R82). R82 gives `ACTIVE` and `pos` no initial value: no slave takes part before
the first bus reset and `pos` is 1 (DESIGN CHOICE, log entry 6). -/
def Ideal.init (devices : List RomId) (variant : IdealVariant) : Ideal where
  devices := devices
  active := []
  mode := .idle
  pos := 1
  status := 0
  data := 0
  config := 0
  ptr := statusPtr
  t := 0
  tickStep := 1
  triplets := 0
  variant := variant

/-- The bit a device sends at position `pos` (R86). Past position 64 an identifier has no bit and R86 states none: every device
sends 0 there (DESIGN CHOICE, log entry 17). -/
def deviceBit (pos : Nat) (id : RomId) : Bool := id.getLsbD (pos - 1)

/-- The two bits read by a triplet: wired-AND of the active slaves' bits and of their complements (R86). -/
def wiredBits (active : List RomId) (pos : Nat) : Bool × Bool :=
  (active.all (deviceBit pos ·), active.all (!deviceBit pos ·))

/-- The direction the bridge writes (R79, R86). -/
def writtenDirection (b c d : Bool) : Bool := if b != c then b else d

/-- A status byte with bits 5, 6, 7 set to `b`, `c`, `w` and the others kept (R86). -/
def withTripletBits (status : Byte) (b c w : Bool) : Byte :=
  (status &&& 0x1F) ||| (if b then 0x20 else 0) ||| (if c then 0x40 else 0) ||| (if w then 0x80 else 0)

/-- A status byte with bit 1 set to `p` and the others kept (R84). -/
def withPresence (status : Byte) (p : Bool) : Byte := (status &&& 0xFD) ||| (if p then 0x02 else 0)

/-- The two bits a triplet reports: R86, but 1, 1 on the k-th triplet of E_NODEV(k) and 0, 0 on every one of E_LOW (R88). -/
def Ideal.readBits (e : Ideal) : Bool × Bool :=
  match e.variant with
  | .noDev k => if e.triplets + 1 = k then (true, true) else wiredBits e.active e.pos
  | .low => (false, false)
  | .plain | .stuck | .badCfg _ => wiredBits e.active e.pos

/-- Bus reset (R84). -/
def Ideal.busReset (e : Ideal) : Ideal :=
  { e with active := e.devices, mode := .idle, status := withPresence e.status (!e.devices.isEmpty), ptr := statusPtr }

/-- Write byte (R85). -/
def Ideal.writeByte (e : Ideal) (v : Byte) : Ideal :=
  if e.mode = .idle ∧ v = searchCommand then { e with mode := .search, pos := 1, ptr := statusPtr }
  else { e with ptr := statusPtr }

/-- Triplet with preferred direction `d` (R86). -/
def Ideal.triplet (e : Ideal) (d : Bool) : Ideal :=
  let (b, c) := e.readBits
  let w := writtenDirection b c d
  { e with
    active := e.active.filter (deviceBit e.pos · == w)
    pos := e.pos + 1
    status := withTripletBits e.status b c w
    ptr := statusPtr
    triplets := e.triplets + 1 }

/-- What read-byte leaves in the data register: 0xFF when no slave drives the bus (R87). R87 states no value for when a slave
drives it (mode search) or it is held low (E_LOW): 0xFF then too (DESIGN CHOICE, log entry 18). -/
def Ideal.busByte (_ : Ideal) : Byte := 0xFF

/-- E_IDEAL receives the bytes of one `LinkWrite` (R83 to R87). Bytes that are no command are ignored. -/
def Ideal.receive (e : Ideal) (f : Frame) : Ideal :=
  match decodeFrame f with
  | .ok (.brSetReadPointer p) => { e with ptr := p }
  | .ok .brBusReset => e.busReset
  | .ok (.brWriteByte v) => e.writeByte v
  | .ok (.brTriplet p) => e.triplet (p.getLsbD 7)
  | .ok .brDeviceReset => { e with status := 0x10, config := 0x00, ptr := statusPtr }
  | .ok (.brConfigWrite v) => { e with config := v &&& 0x0F, ptr := configPtr }
  | .ok .brReadByte => { e with data := e.busByte, ptr := statusPtr }
  | .ok (.brChannelSelect _) => { e with ptr := statusPtr }
  | _ => e

/-- What E_IDEAL answers to a `LinkRead` (R83); status bit 0 reads 1 in E_STUCK, status bit 1 (presence) reads 1 in E_LOW,
the config register reads `v` in E_BADCFG(v) (R88). -/
def Ideal.answer (e : Ideal) : Byte :=
  if e.ptr = statusPtr then
    match e.variant with
    | .stuck => e.status ||| 0x01
    | .low => e.status ||| 0x02
    | .plain | .noDev _ | .badCfg _ => e.status
  else if e.ptr = configPtr then
    match e.variant with
    | .badCfg v => v
    | .plain | .stuck | .noDev _ | .low => e.config
  else if e.ptr = dataPtr then e.data
  else 0x00

/-- The environment receives one `LinkWrite`. The oracle promises nothing about what it does with it (R70). -/
def Env.receive : Env → Frame → Env
  | .oracle o, _ => .oracle o
  | .ideal e, f => .ideal (e.receive f)

/-- The environment's answer to a `LinkRead`, given the events before it. -/
def Env.answer : Env → List Event → Byte
  | .oracle o, trace => o.answers.head?.getD (Config.freeAnswer trace)
  | .ideal e, _ => e.answer

/-- The environment after a `LinkRead`. -/
def Env.afterRead : Env → Env
  | .oracle o => .oracle { o with answers := o.answers.tail }
  | .ideal e => .ideal e

/-- The tick source's next sample, given the events before it: never smaller than an earlier one (R10, R254). -/
def Env.sample : Env → List Event → Nat
  | .oracle o, trace => o.now + o.steps.head?.getD (Config.freeTickStep trace)
  | .ideal e, _ => e.t

/-- The environment after a `Tick` that gave `sample`. -/
def Env.afterTick : Env → Nat → Env
  | .oracle o, sample => .oracle { o with steps := o.steps.tail, now := sample }
  | .ideal e, _ => .ideal { e with t := e.t + e.tickStep }

/-- A lower bound on every later tick sample. -/
def Env.clock : Env → Nat
  | .oracle o => o.now
  | .ideal e => e.t

end Sys2Proof.Machine
end

