-- ==== Sys2Proof/Machine/Flags.lean ====
section
/-! DEFINITION. Flags and tests: the status byte's five flags (spec 30_encoding R105), the conditions of the two polls,
the read-back check, the tests of the search step, and the codes of results. -/

namespace Sys2Proof.Machine

/-- Status bit 0 (R105). -/
def busy (s : Byte) : Bool := s.getLsbD 0

/-- Status bit 1, presence-pulse-detected (R105). -/
def ppd (s : Byte) : Bool := s.getLsbD 1

/-- Status bit 5, single-bit-read, the walk's `id_bit` (R105, R31). -/
def sbr (s : Byte) : Bool := s.getLsbD 5

/-- Status bit 6, complement-bit-read, the walk's `cmp_bit` (R105, R31). -/
def tsb (s : Byte) : Bool := s.getLsbD 6

/-- Status bit 7, branch-direction-written, the walk's `w` (R105, R31). -/
def dir (s : Byte) : Bool := s.getLsbD 7

/-- The condition a poll waits for (R140, R153). -/
inductive Cond where
  | presence | notBusy
  deriving DecidableEq, Repr

/-- Does a status byte satisfy the condition? -/
def Cond.holds : Cond → Byte → Bool
  | .presence, s => ppd s
  | .notBusy, s => !busy s

/-- Has a poll that began at `t0` exceeded its budget at `now`? `now - t0 >= T` (R152). -/
def expired (t0 now budget : Nat) : Bool := decide (now - t0 ≥ budget)

/-- The read-back check of config-write: only bits 3..0 are compared (R108). -/
def configVerified (f : BitVec 4) (r : Byte) : Bool := r.extractLsb' 0 4 == f

/-- Both read bits 1: no device answered (R189). -/
def noDevice (s : Byte) : Bool := sbr s && tsb s

/-- A discrepancy written as 0 (R190). -/
def zeroBranch (s : Byte) : Bool := !sbr s && !tsb s && !dir s

/-- The fresh-pass test (R183). -/
def SearchState.fresh (s : SearchState) : Bool := s.lastDiscrepancy == 0 && !s.lastDeviceFlag

/-- The all-zero test over the 64 bits of the buffer (R194). -/
def SearchState.allZero (s : SearchState) : Bool := s.rom.toList.all (· == 0)

/-- The tie-break rule: the preferred direction at the walk's position (R187). -/
def preferred (s : SearchState) (w : Walk) : Bool :=
  if w.n < s.lastDiscrepancy then romBit s.rom w.byteIdx.toNat w.mask
  else w.n == s.lastDiscrepancy

/-- The numbers of the result codes (R111). -/
def ResCode.bits : ResCode → BitVec 4
  | .none => 0x0
  | .ok => 0x1
  | .found => 0x2
  | .exhausted => 0x3
  | .timeout => 0x4
  | .absent => 0x5
  | .mismatch => 0x6
  | .notFound => 0x7
  | .illegal => 0x8

/-- What the host sees of a failure, by operation (R240, R245). Where an operation cannot end in a failure the entry is
the operation's ordinary result and is never used. -/
def Failure.seenBy : Failure → Op → ResCode
  | .timeout, .owReset => .absent
  | .busAbsent, .owReset => .absent
  | .configMismatch, .cfgWrite => .mismatch
  | _, .searchFirst => .exhausted
  | _, .searchNext => .exhausted
  | _, .enumerate => .ok
  | _, .regLookup => .notFound
  | _, .regGetall => .ok
  | _, _ => .timeout

end Sys2Proof.Machine
end

