-- ==== Sys2Proof/Machine/Ops.lean ====
section
/-! DEFINITION. The named operations over the state: the environment primitives as events, the micro-operations of the
Search State and the registry, acceptance of a request, the completion and failure exits every operation shares. -/

namespace Sys2Proof.Machine

/-- `LinkWrite`: one event; the environment receives the bytes (R10). -/
def Link.write (l : Link) (f : Frame) : Link :=
  { l with env := l.env.receive f, trace := .linkWrite Config.bridgeAddr f :: l.trace }

/-- `LinkRead` of the register the pointer selects: one event; the answer goes into the latch, and into `SNAP` when it is
the status register's (R10, R150, R151). -/
def Link.read (l : Link) (ptr : Byte) : Link :=
  let v := l.env.answer l.trace
  { l with
    env := l.env.afterRead
    trace := .linkRead Config.bridgeAddr v :: l.trace
    rd := v
    snap := if ptr = statusPtr then v else l.snap }

/-- The sample `Tick` gives now. -/
def Link.now (l : Link) : Nat := l.env.sample l.trace

/-- `Tick`: one event (R10). -/
def Link.tick (l : Link) : Link :=
  { l with env := l.env.afterTick l.now, trace := .tick l.now :: l.trace }

/-- `Tick` into `t0` (R32, R152). -/
def Link.startPoll (l : Link) : Link := { l.tick with t0 := l.now }

/-- `ResetSearchState` (R25): three fields, the buffer untouched. -/
def SearchState.reset (s : SearchState) : SearchState :=
  { s with lastDiscrepancy := 0, lastFamilyDiscrepancy := 0, lastDeviceFlag := false }

/-- The Search State is empty (R25). -/
def SearchState.isEmpty (s : SearchState) : Bool :=
  s.lastDiscrepancy == 0 && s.lastFamilyDiscrepancy == 0 && !s.lastDeviceFlag

/-- `RegistryClear` (R221). -/
def Registry.clear (_ : Registry) : Registry := { slots := Vector.replicate 16 0, count := 0 }

/-- A slot by index, 0 past the last one. -/
def Registry.slot (r : Registry) (i : Nat) : RomId := r.slots[i]?.getD 0

/-- `REG_APPEND` (R220): the next free slot, or nothing when the registry is full. -/
def Registry.append (r : Registry) (id : RomId) : Registry :=
  if r.count.toNat < Config.regN then { slots := r.slots.setIfInBounds r.count.toNat id, count := r.count + 1 } else r

/-- The lowest occupied slot that holds the identifier (R222). -/
def Registry.find (r : Registry) (id : RomId) : Option Nat :=
  (List.range r.count.toNat).find? (r.slot · == id)

/-- How many identifiers `get_all_ids` gives (R223). -/
def Registry.countUpTo (r : Registry) (capacity : Nat) : Nat := min r.count.toNat capacity

/-- The sequence `get_all_ids` gives, in discovery order (R223). -/
def Registry.sequence (r : Registry) (capacity : Nat) : List RomId :=
  (List.range (r.countUpTo capacity)).map r.slot

/-- The walk temporaries at position 1 (R186). -/
def Walk.init (w : Walk) : Walk := { w with n := 1, lastZero := 0, byteIdx := 0, mask := 0x01 }

/-- Advance to the next position (R192). -/
def Walk.advance (w : Walk) : Walk :=
  let mask := w.mask <<< 1
  if mask = 0 then { w with n := w.n + 1, byteIdx := w.byteIdx + 1, mask := 0x01 }
  else { w with n := w.n + 1, mask := mask }

/-- Are there positions left to walk? (R192) -/
def Walk.more (w : Walk) : Bool := decide (w.byteIdx < 8)

/-- `STATUS.run` (R35): 1 while `FSM` is not IDLE. -/
def State.run (s : State) : Bool := s.ctl.fsm != .idle

/-- Move the control state. -/
def State.goto (s : State) (f : Fsm) : State := { s with ctl := { s.ctl with fsm := f } }

/-- Replace the link side. -/
def State.withLink (s : State) (l : Link) : State := { s with link := l }

/-- Load the argument of a `Cmd` call (R154). -/
def State.loadCmd (s : State) (f : Frame) : State := { s with ctl := { s.ctl with cmd := f } }

/-- The host's write of `CW` is accepted: IDLE to DISPATCH, the operands `ARG8` and `ARG_ID` latched, so that no later host
write of them reaches the operation (R34, R35, R76). -/
def State.accept (s : State) (w : CmdWord) : State :=
  { s with
    port := { s.port with cw := w }
    ctl := { s.ctl with fsm := .dispatch, arg := arg8Field w, argId := s.port.argId } }

/-- A request for an operation: accepted in IDLE, refused while another operation runs (R34, R76). -/
def State.request (s : State) (w : CmdWord) : Host.Outcome State Fault Refusal :=
  if s.run then .refused .requestWhileRunning else .next (s.accept w)

/-- DISPATCH enters the operation's first program point with the operand `ARG8` of its word; `ARG_ID` is as acceptance
latched it (R34, R76). -/
def State.enter (s : State) (arg : Byte) (f : Fsm) : State := { s with ctl := { s.ctl with fsm := f, arg := arg } }

/-- An operation's pseudocode returns: its result code is written and COMPLETE entered; the other result registers have been
written by the operation, or keep their values (R34, R35). -/
def State.finish (s : State) (c : ResCode) : State :=
  { s with port := { s.port with resCode := c }, ctl := { s.ctl with fsm := .complete } }

/-- The failure exit of an operation: its result code is what the host sees of this failure (R245, R249). The Search State
is reset by the search step's own exit `State.searchFail`, and by nothing else. -/
def State.raise (s : State) (k : Failure) (o : Op) : State := s.finish (k.seenBy o)

/-- COMPLETE to IDLE: the way back from an operation, failed or not (R34, R250). -/
def State.retire (s : State) : State := s.goto .idle

/-- The failure exit of the search step (R196): the Search State becomes empty, all else stays. -/
def State.searchFail (s : State) : State := { s with search := s.search.reset }

/-- Write `RES_BYTE`. -/
def State.setResByte (s : State) (v : Byte) : State := { s with port := { s.port with resByte := v } }

/-- Write `RES_ID`. -/
def State.setResId (s : State) (v : RomId) : State := { s with port := { s.port with resId := v } }

/-- Write `RES_COUNT`. -/
def State.setResCount (s : State) (v : BitVec 5) : State := { s with port := { s.port with resCount := v } }

end Sys2Proof.Machine
end

