-- ==== Sys2Proof/Machine/Sequencer.lean ====
section
/-! DEFINITION. The sub-machines every operation is made of, one program point at a time: `ReadRegister`, `Poll`, `Cmd`
(spec 41_bridge_command_layer R150 to R154) and `reset()` (40_bus_reset_presence R140). They touch the link side only. -/

namespace Sys2Proof.Machine

/-- What a program point of a sub-machine does with control: go to another point of it, or return a result. -/
inductive Flow (π ρ : Type) where
  | goto (p : π)
  | done (r : ρ)
  deriving DecidableEq, Repr

/-- The result of a bounded wait (R152, R154). -/
inductive Wait where
  | ok | timeout
  deriving DecidableEq, Repr

/-- Carry the points of a called sub-machine into the caller's, and its result to the caller's next point. -/
def Flow.within {π ρ π' ρ' : Type} (call : π → π') (ret : ρ → Flow π' ρ') : Flow π ρ → Flow π' ρ'
  | .goto p => .goto (call p)
  | .done r => ret r

/-- One program point of `ReadRegister(ptr)` (R150). -/
def readPoint (ptr : Byte) (p : ReadPt) (l : Link) : Link × Flow ReadPt Unit :=
  match p with
  | .rrSel => (l.write (selectFrame ptr), .goto .rrRd)
  | .rrRd => (l.read ptr, .done ())

/-- One program point of `Poll(cond, budget)` (R152). -/
def pollPoint (cond : Cond) (budget : Nat) (p : PollPt) (l : Link) : Link × Flow PollPt Wait :=
  match p with
  | .pT0 => (l.startPoll, .goto (.pSample .rrSel))
  | .pSample r =>
    let (l', f) := readPoint statusPtr r l
    (l', f.within .pSample fun _ => .goto .pTest)
  | .pTest => (l, .goto (if cond.holds l.snap then .pOk else .pTime))
  | .pTime => (l.tick, .goto (if expired l.t0 l.now budget then .pTimeout else .pSample .rrSel))
  | .pOk => (l, .done .ok)
  | .pTimeout => (l, .done .timeout)

/-- One program point of `busy_wait(T_BUSY)` (R153, R162). -/
def busyPoint (p : PollPt) (l : Link) : Link × Flow PollPt Wait := pollPoint .notBusy Config.tBusy p l

/-- One program point of `Cmd` with the argument `cmd` (R154). A pre-wait that times out leaves the command unsent. -/
def cmdPoint (cmd : Frame) (p : CmdPt) (l : Link) : Link × Flow CmdPt Wait :=
  match p with
  | .cPre q =>
    let (l', f) := busyPoint q l
    (l', f.within .cPre fun
      | .ok => .goto .cIssue
      | .timeout => .goto .cFail)
  | .cIssue => (l.write cmd, .goto (.cPost .pT0))
  | .cPost q =>
    let (l', f) := busyPoint q l
    (l', f.within .cPost fun
      | .ok => .goto .cOk
      | .timeout => .goto .cFail)
  | .cOk => (l, .done .ok)
  | .cFail => (l, .done .timeout)

/-- One program point of `reset()` (R140): true iff presence was seen and then busy cleared, each within its budget. -/
def resetPoint (p : ResetPt) (l : Link) : Link × Flow ResetPt Bool :=
  match p with
  | .brIssue => (l.write busResetFrame, .goto (.brPpd .pT0))
  | .brPpd q =>
    let (l', f) := pollPoint .presence Config.tReset q l
    (l', f.within .brPpd fun
      | .ok => .goto (.brBusy .pT0)
      | .timeout => .goto .brFalse)
  | .brBusy q =>
    let (l', f) := busyPoint q l
    (l', f.within .brBusy fun
      | .ok => .goto .brTrue
      | .timeout => .goto .brFalse)
  | .brTrue => (l, .done true)
  | .brFalse => (l, .done false)

end Sys2Proof.Machine
end

