-- ==== Sys2Proof/Machine/Layer.lean ====
section
/-! DEFINITION. Host operations of the bridge command layer and the bus reset: OW_RESET (spec 40_bus_reset_presence R140),
BUSY_WAIT, READ_REG, WRITE_BYTE, READ_BYTE, TRIPLET, DEV_RESET, CFG_WRITE (41_bridge_command_layer R153 to R160).
A meaning performs ONE program point of its operation: in IDLE it is the request (R34), in DISPATCH it enters the operation,
at one of the operation's own points it does what the pseudocode has there, and while another operation runs it is
refused (R76). -/

namespace Sys2Proof.Machine

/-- A program point of a `Cmd` call an operation makes: `stay` is where control is while it runs, `ok` what follows it.
A timeout is the operation's failure (R154). -/
def State.callCmd (s : State) (o : Op) (p : CmdPt) (stay : CmdPt → Fsm) (ok : State → State) : State :=
  match cmdPoint s.ctl.cmd p s.link with
  | (l, .goto q) => (s.withLink l).goto (stay q)
  | (l, .done .ok) => ok (s.withLink l)
  | (l, .done .timeout) => (s.withLink l).raise .timeout o

/-- A program point of a `ReadRegister` call an operation makes. -/
def State.callRead (s : State) (ptr : Byte) (p : ReadPt) (stay : ReadPt → Fsm) (ok : State → State) : State :=
  match readPoint ptr p s.link with
  | (l, .goto q) => (s.withLink l).goto (stay q)
  | (l, .done ()) => ok (s.withLink l)

/-- A program point of a `busy_wait` an operation makes. -/
def State.callPoll (s : State) (budget : Nat) (p : PollPt) (stay : PollPt → Fsm) (ok timeout : State → State) : State :=
  match pollPoint .notBusy budget p s.link with
  | (l, .goto q) => (s.withLink l).goto (stay q)
  | (l, .done .ok) => ok (s.withLink l)
  | (l, .done .timeout) => timeout (s.withLink l)

/-- `OW_RESET` (R140). Its boolean does not tell Bus-Absent from Timeout: both are reported as ABSENT (R245). -/
def execOwReset (arg : Byte) (s : State) : Host.Outcome State Fault Refusal :=
  match s.ctl.fsm with
  | .dispatch => .next (s.enter arg (.owReset .brIssue))
  | .owReset p =>
    match resetPoint p s.link with
    | (l, .goto q) => .next ((s.withLink l).goto (.owReset q))
    | (l, .done true) => .next ((s.withLink l).finish .ok)
    | (l, .done false) => .next ((s.withLink l).raise .busAbsent .owReset)
  | _ => s.request (hostWordOf Op.owReset.code arg)

/-- `BUSY_WAIT` (R153): the budget is the operand; the last status byte sampled is the result either way. -/
def execBusyWait (arg : Byte) (s : State) : Host.Outcome State Fault Refusal :=
  match s.ctl.fsm with
  | .dispatch => .next (s.enter arg (.busyWait .pT0))
  | .busyWait p =>
    .next (s.callPoll (timeoutOf arg) p .busyWait
      (fun t => (t.setResByte t.link.snap).finish .ok)
      (fun t => (t.setResByte t.link.snap).raise .timeout .busyWait))
  | _ => s.request (hostWordOf Op.busyWait.code arg)

/-- `READ_REG` (R155): a pre-wait unless the status register is read, then the register; the pointer is not checked. -/
def execReadReg (arg : Byte) (s : State) : Host.Outcome State Fault Refusal :=
  match s.ctl.fsm with
  | .dispatch => .next (s.enter arg (if arg = statusPtr then .readReg .rrSel else .readRegWait .pT0))
  | .readRegWait p =>
    .next (s.callPoll Config.tBusy p .readRegWait
      (fun t => t.goto (.readReg .rrSel))
      (fun t => t.raise .timeout .readReg))
  | .readReg p => .next (s.callRead arg p .readReg fun t => (t.setResByte t.link.rd).finish .ok)
  | _ => s.request (hostWordOf Op.readReg.code arg)

/-- `WRITE_BYTE` (R156). -/
def execWriteByte (arg : Byte) (s : State) : Host.Outcome State Fault Refusal :=
  match s.ctl.fsm with
  | .dispatch => .next ((s.enter arg (.writeByte (.cPre .pT0))).loadCmd (writeByteFrame arg))
  | .writeByte p => .next (s.callCmd .writeByte p .writeByte (·.finish .ok))
  | _ => s.request (hostWordOf Op.writeByte.code arg)

/-- `READ_BYTE` (R157): the command, then the data register. -/
def execReadByte (arg : Byte) (s : State) : Host.Outcome State Fault Refusal :=
  match s.ctl.fsm with
  | .dispatch => .next ((s.enter arg (.readByte (.cPre .pT0))).loadCmd readByteFrame)
  | .readByte p => .next (s.callCmd .readByte p .readByte (·.goto (.readByteData .rrSel)))
  | .readByteData p => .next (s.callRead dataPtr p .readByteData fun t => (t.setResByte t.link.rd).finish .ok)
  | _ => s.request (hostWordOf Op.readByte.code arg)

/-- `TRIPLET` (R158): the result is the last status sample of the post-wait, both read bits 1 or not. -/
def execTriplet (arg : Byte) (s : State) : Host.Outcome State Fault Refusal :=
  match s.ctl.fsm with
  | .dispatch =>
    .next ((s.enter arg (.triplet (.cPre .pT0))).loadCmd (tripletFrame (tripletDirByte (directionOf arg))))
  | .triplet p => .next (s.callCmd .triplet p .triplet fun t => (t.setResByte t.link.snap).finish .ok)
  | _ => s.request (hostWordOf Op.triplet.code arg)

/-- `DEV_RESET` (R159): status bit 4 is not examined, no state of the block is reset. -/
def execDevReset (arg : Byte) (s : State) : Host.Outcome State Fault Refusal :=
  match s.ctl.fsm with
  | .dispatch => .next ((s.enter arg (.devReset (.cPre .pT0))).loadCmd deviceResetFrame)
  | .devReset p => .next (s.callCmd .devReset p .devReset (·.finish .ok))
  | _ => s.request (hostWordOf Op.devReset.code arg)

/-- `CFG_WRITE` (R160): the command, the read-back, and the comparison of its low nibble with the four bits written. -/
def execCfgWrite (arg : Byte) (s : State) : Host.Outcome State Fault Refusal :=
  match s.ctl.fsm with
  | .dispatch =>
    .next ((s.enter arg (.cfgWrite (.cPre .pT0))).loadCmd (configWriteFrame (configByte (configFlags arg))))
  | .cfgWrite p => .next (s.callCmd .cfgWrite p .cfgWrite (·.goto (.cfgReadBack .rrSel)))
  | .cfgReadBack p => .next (s.callRead configPtr p .cfgReadBack (·.goto .cfgCompare))
  | .cfgCompare =>
    if configVerified (configFlags arg) s.link.rd then .next ((s.setResByte s.link.rd).finish .ok)
    else .next ((s.setResByte s.link.rd).raise .configMismatch .cfgWrite)
  | _ => s.request (hostWordOf Op.cfgWrite.code arg)

end Sys2Proof.Machine
end

