-- ==== Sys2Proof/Machine/Control.lean ====
section
/-! DEFINITION. The control state seen from outside: which instruction the machine runs next (fetch), how control moves
past a program point that issues a bridge command, and where a word is placed so that the next step runs it. -/

namespace Sys2Proof.Machine

/-- Control past `RR_SEL` (R150). -/
def ReadPt.issued : ReadPt → ReadPt
  | .rrSel => .rrRd
  | .rrRd => .rrRd

/-- Control past the select phase of a poll's status read (R152). -/
def PollPt.issued : PollPt → PollPt
  | .pSample r => .pSample r.issued
  | p => p

/-- Control past a command's issue (R154). -/
def CmdPt.issued : CmdPt → CmdPt
  | .cPre p => .cPre p.issued
  | .cIssue => .cPost .pT0
  | .cPost p => .cPost p.issued
  | p => p

/-- Control past the bus-reset command (R140). -/
def ResetPt.issued : ResetPt → ResetPt
  | .brIssue => .brPpd .pT0
  | .brPpd p => .brPpd p.issued
  | .brBusy p => .brBusy p.issued
  | p => p

/-- Control past an issue inside the search step (R182). -/
def SearchPt.issued : SearchPt → SearchPt
  | .sReset r => .sReset r.issued
  | .sCmd c => .sCmd c.issued
  | .sTrip c => .sTrip c.issued
  | p => p

/-- Control past an issue inside the enumeration (R197). -/
def EnumPt.issued : EnumPt → EnumPt
  | .eFirst p => .eFirst p.issued
  | .eNext p => .eNext p.issued
  | .eDone => .eDone

/-- Control past the issue of a bridge command; control that is at no such point stays. -/
def Fsm.issued : Fsm → Fsm
  | .owReset p => .owReset p.issued
  | .busyWait p => .busyWait p.issued
  | .readRegWait p => .readRegWait p.issued
  | .readReg p => .readReg p.issued
  | .writeByte p => .writeByte p.issued
  | .readByte p => .readByte p.issued
  | .readByteData p => .readByteData p.issued
  | .triplet p => .triplet p.issued
  | .devReset p => .devReset p.issued
  | .cfgWrite p => .cfgWrite p.issued
  | .cfgReadBack p => .cfgReadBack p.issued
  | .searchFirst p => .searchFirst p.issued
  | .searchNext p => .searchNext p.issued
  | .enumerate p => .enumerate p.issued
  | f => f

/-- The frame `ReadRegister(ptr)` sends at this point, if it sends one. -/
def ReadPt.issuing (ptr : Byte) : ReadPt → Option Frame
  | .rrSel => some (selectFrame ptr)
  | .rrRd => none

/-- The frame a poll sends at this point: the select phase of its status read. -/
def PollPt.issuing : PollPt → Option Frame
  | .pSample r => r.issuing statusPtr
  | _ => none

/-- The frame `Cmd` sends at this point; `cmd` is its argument. -/
def CmdPt.issuing (cmd : Frame) : CmdPt → Option Frame
  | .cPre p => p.issuing
  | .cIssue => some cmd
  | .cPost p => p.issuing
  | _ => none

/-- The frame `reset()` sends at this point. -/
def ResetPt.issuing : ResetPt → Option Frame
  | .brIssue => some busResetFrame
  | .brPpd p => p.issuing
  | .brBusy p => p.issuing
  | _ => none

/-- The frame the search step sends at this point. -/
def SearchPt.issuing (cmd : Frame) : SearchPt → Option Frame
  | .sReset r => r.issuing
  | .sCmd c => c.issuing cmd
  | .sTrip c => c.issuing cmd
  | _ => none

/-- The frame the enumeration sends at this point. -/
def EnumPt.issuing (cmd : Frame) : EnumPt → Option Frame
  | .eFirst p => p.issuing cmd
  | .eNext p => p.issuing cmd
  | .eDone => none

/-- The frame the block sends at this program point, if it sends one: the command place of the machine (R101, R103). -/
def Control.issuing (c : Control) : Option Frame :=
  match c.fsm with
  | .owReset p => p.issuing
  | .busyWait p => p.issuing
  | .readRegWait p => p.issuing
  | .readReg p => p.issuing c.arg
  | .writeByte p => p.issuing c.cmd
  | .readByte p => p.issuing c.cmd
  | .readByteData p => p.issuing dataPtr
  | .triplet p => p.issuing c.cmd
  | .devReset p => p.issuing c.cmd
  | .cfgWrite p => p.issuing c.cmd
  | .cfgReadBack p => p.issuing configPtr
  | .searchFirst p => p.issuing c.cmd
  | .searchNext p => p.issuing c.cmd
  | .enumerate p => p.issuing c.cmd
  | .idle | .dispatch | .complete | .cfgCompare | .regLookup _ | .regGetall _ => none

/-- The host operation that runs, with its latched operand; none at the three top-level points. -/
def Control.running (c : Control) : Option Instr :=
  match c.fsm with
  | .idle | .dispatch | .complete => none
  | .owReset _ => some (.owReset c.arg)
  | .busyWait _ => some (.busyWait c.arg)
  | .readRegWait _ | .readReg _ => some (.readReg c.arg)
  | .writeByte _ => some (.writeByte c.arg)
  | .readByte _ | .readByteData _ => some (.readByte c.arg)
  | .triplet _ => some (.triplet c.arg)
  | .devReset _ => some (.devReset c.arg)
  | .cfgWrite _ | .cfgReadBack _ | .cfgCompare => some (.cfgWrite c.arg)
  | .searchFirst _ => some (.searchFirst c.arg)
  | .searchNext _ => some (.searchNext c.arg)
  | .enumerate _ => some (.enumerate c.arg)
  | .regLookup _ => some (.regLookup c.arg)
  | .regGetall _ => some (.regGetall c.arg)

/-- What the machine runs next. In DISPATCH: the operation of `CW`. At a point that sends a frame: the bridge command of
that frame. At any other point of an operation: that operation. In IDLE and COMPLETE: nothing. -/
def State.fetched (s : State) : Option (Except DecodeError Instr) :=
  match s.ctl.fsm with
  | .dispatch => some (decode (.hostWord s.port.cw))
  | _ =>
    match s.ctl.issuing with
    | some f => some (decode (.bridge f))
    | none => s.ctl.running.map .ok

/-- A bridge command is executed: its frame is one event, and control moves past the point that issued it (R10, R154). -/
def State.issue (s : State) (f : Frame) : State := (s.withLink (s.link.write f)).goto s.ctl.fsm.issued

/-- The program point whose operation issues a frame (R102). A frame no operation issues is put at the issue point
of `WRITE_BYTE`. -/
def issuePointOf (f : Frame) : Fsm :=
  if f = busResetFrame then .owReset .brIssue
  else if f.code = 0xF0 then .devReset .cIssue
  else if f.code = 0x96 then .readByte .cIssue
  else if f.code = 0xD2 then .cfgWrite .cIssue
  else if f.code = 0x78 then .triplet .cIssue
  else .writeByte .cIssue

/-- The state whose next fetch finds this word: a host word in `CW` with the machine in DISPATCH; a set-read-pointer or a
pointer code at `RR_SEL` of `READ_REG` with that pointer; another frame in the command latch at an issue point; a bus
command as the parameter of write-byte (log entry 5). -/
def State.place (s : State) : Code → State
  | .hostWord w => s.accept w
  | .bridge f =>
    match f.code == 0xE1, f.param with
    | true, some p => { s with ctl := { s.ctl with fsm := .readReg .rrSel, arg := p } }
    | _, _ => { s with ctl := { s.ctl with fsm := issuePointOf f, cmd := f } }
  | .pointer p => { s with ctl := { s.ctl with fsm := .readReg .rrSel, arg := p } }
  | .bus b => { s with ctl := { s.ctl with fsm := .writeByte .cIssue, cmd := writeByteFrame b } }

end Sys2Proof.Machine
end

