-- ==== Sys2Proof/Machine/LinkOps.lean ====
section
/-! DEFINITION. The layers below the host word: bridge commands (spec 30_encoding R102), pointer codes (R103) and bus
commands (R104). To the block each is one `LinkWrite`: the frame goes out as one event, the environment receives it, and
control moves past the point that issued it. What the bridge and the slaves do with it is the environment's. -/

namespace Sys2Proof.Machine

/-- device-reset, 0xF0 (R159). -/
def execBrDeviceReset (s : State) : Host.Outcome State Fault Refusal := .next (s.issue deviceResetFrame)

/-- set-read-pointer, 0xE1 and a pointer code (R150). -/
def execBrSetReadPointer (param : Byte) (s : State) : Host.Outcome State Fault Refusal := .next (s.issue (selectFrame param))

/-- config-write, 0xD2 and a configuration byte (R160). -/
def execBrConfigWrite (param : Byte) (s : State) : Host.Outcome State Fault Refusal :=
  .next (s.issue (configWriteFrame param))

/-- channel-select, 0xC3 and a parameter byte (R102, R113). No operation of the block issues it (log entry 9). -/
def execBrChannelSelect (s : State) (param : Byte := 0) : Host.Outcome State Fault Refusal :=
  .next (s.issue (channelSelectFrame param))

/-- bus-reset, 0xB4 (R140). -/
def execBrBusReset (s : State) : Host.Outcome State Fault Refusal := .next (s.issue busResetFrame)

/-- write-byte, 0xA5 and the byte to send on the bus (R156). -/
def execBrWriteByte (param : Byte) (s : State) : Host.Outcome State Fault Refusal := .next (s.issue (writeByteFrame param))

/-- read-byte, 0x96 (R157). -/
def execBrReadByte (s : State) : Host.Outcome State Fault Refusal := .next (s.issue readByteFrame)

/-- triplet, 0x78 and a direction byte (R158, R112). -/
def execBrTriplet (param : Byte) (s : State) : Host.Outcome State Fault Refusal := .next (s.issue (tripletFrame param))

/-- Pointer code of the status register: the select phase of a read of it (R103, R150). -/
def execPtrStatus (s : State) : Host.Outcome State Fault Refusal := .next (s.issue (selectFrame statusPtr))

/-- Pointer code of the data register (R103, R150). -/
def execPtrData (s : State) : Host.Outcome State Fault Refusal := .next (s.issue (selectFrame dataPtr))

/-- Pointer code of the channel register (R103, R113, R150). -/
def execPtrChannel (s : State) : Host.Outcome State Fault Refusal := .next (s.issue (selectFrame channelPtr))

/-- Pointer code of the configuration register (R103, R150). -/
def execPtrConfig (s : State) : Host.Outcome State Fault Refusal := .next (s.issue (selectFrame configPtr))

/-- The bus command search, sent as the parameter of write-byte (R104, R186). -/
def execBusSearch (s : State) : Host.Outcome State Fault Refusal := .next (s.issue (writeByteFrame searchCommand))

/-- The bus command match-ROM, sent as the parameter of write-byte (R104, R113, R156). -/
def execBusMatchRom (s : State) : Host.Outcome State Fault Refusal := .next (s.issue (writeByteFrame matchRomCommand))

end Sys2Proof.Machine
end

