-- ==== Sys2Proof/Machine/RegistryOps.lean ====
section
/-! DEFINITION. Host operations on the Device Registry (spec 43_device_registry R222, R223) and the reserved host
operation codes (30_encoding R114). None of them emits an event. -/

namespace Sys2Proof.Machine

/-- `REG_LOOKUP` (R222): the lowest occupied slot that holds the latched identifier. -/
def execRegLookup (arg : Byte) (s : State) : Host.Outcome State Fault Refusal :=
  match s.ctl.fsm with
  | .dispatch => .next (s.enter arg (.regLookup .gScan))
  | .regLookup .gScan =>
    match s.registry.find s.ctl.argId with
    | some i => .next ((s.setResCount (BitVec.ofNat 5 i)).finish .found)
    | none => .next (s.goto (.regLookup .gDone))
  | .regLookup .gDone => .next (s.finish .notFound)
  | _ => s.request (hostWordOf Op.regLookup.code arg)

/-- `REG_GETALL` (R223): how many identifiers the host may read from `SLOT[0..count-1]`. Both result registers are written
when the operation returns, at `G_DONE` (R34, R35). -/
def execRegGetall (arg : Byte) (s : State) : Host.Outcome State Fault Refusal :=
  match s.ctl.fsm with
  | .dispatch => .next (s.enter arg (.regGetall .gScan))
  | .regGetall .gScan => .next (s.goto (.regGetall .gDone))
  | .regGetall .gDone => .next ((s.setResCount (BitVec.ofNat 5 (s.registry.countUpTo (capacityOf arg)))).finish .ok)
  | _ => s.request (hostWordOf Op.regGetall.code arg)

/-- A reserved code completes at once with `ILLEGAL`; nothing else changes (R114). -/
def State.illegal (s : State) (op : BitVec 4) (arg : Byte) : Host.Outcome State Fault Refusal :=
  match s.ctl.fsm with
  | .dispatch => .next (s.finish .illegal)
  | _ => s.request (hostWordOf op arg)

/-- Reserved code 0x0 (R114). -/
def execReserved0 (arg : Byte) (s : State) : Host.Outcome State Fault Refusal := s.illegal 0x0 arg

/-- Reserved code 0xE (R114). -/
def execReservedE (arg : Byte) (s : State) : Host.Outcome State Fault Refusal := s.illegal 0xE arg

/-- Reserved code 0xF (R114). -/
def execReservedF (arg : Byte) (s : State) : Host.Outcome State Fault Refusal := s.illegal 0xF arg

end Sys2Proof.Machine
end

