-- ==== Sys2Proof/Machine/Search.lean ====
section
/-! DEFINITION. The ROM search FSM (spec 42_rom_search R180 to R203): the search step, one program point at a time, its two
entry points and the full enumeration. -/

namespace Sys2Proof.Machine

/-- The result of a search step (R182). -/
inductive SearchResult where
  | found (id : RomId)
  | exhausted
  deriving DecidableEq, Repr

/-- `S_FRESH`: a fresh pass begins with an empty registry (R183). -/
def State.beginStep (s : State) : State :=
  if s.search.fresh then { s with registry := s.registry.clear } else s

/-- `S_DIR`: the preferred direction of this position (R187). -/
def State.chooseDirection (s : State) : State := { s with walk := { s.walk with d := preferred s.search s.walk } }

/-- `S_ZERO`: discrepancy tracking (R190). -/
def State.trackZero (s : State) : State :=
  if zeroBranch s.link.snap then
    { s with
      walk := { s.walk with lastZero := s.walk.n }
      search :=
        if s.walk.n ≤ 8 then { s.search with lastFamilyDiscrepancy := s.walk.n } else s.search }
  else s

/-- `S_STORE`: the direction the bridge wrote goes into the buffer (R191). -/
def State.storeBit (s : State) : State :=
  { s with search :=
      { s.search with rom := romStore s.search.rom s.walk.byteIdx.toNat s.walk.mask (dir s.link.snap) } }

/-- `S_FIN`: the end of a complete walk (R193). -/
def State.endWalk (s : State) : State :=
  { s with search :=
      { s.search with
        lastDiscrepancy := s.walk.lastZero
        lastDeviceFlag := s.walk.lastZero == 0 || s.search.lastDeviceFlag } }

/-- `S_REG`: append the identifier (R195). -/
def State.register (s : State) : State := { s with registry := s.registry.append (romToId s.search.rom) }

/-- One program point of `search_step()` (R182). -/
def searchPoint (p : SearchPt) (s : State) : State × Flow SearchPt SearchResult :=
  match p with
  | .sFresh => (s.beginStep, .goto .sLdf)
  | .sLdf => (s, .goto (if s.search.lastDeviceFlag then .sFail else .sReset .brIssue))
  | .sReset q =>
    match resetPoint q s.link with
    | (l, .goto q') => (s.withLink l, .goto (.sReset q'))
    | (l, .done true) => ((s.withLink l).loadCmd (writeByteFrame searchCommand), .goto (.sCmd (.cPre .pT0)))
    | (l, .done false) => (s.withLink l, .goto .sFail)
  | .sCmd q =>
    let (l, f) := cmdPoint s.ctl.cmd q s.link
    (s.withLink l, f.within .sCmd fun
      | .ok => .goto .sInit
      | .timeout => .goto .sFail)
  | .sInit => ({ s with walk := s.walk.init }, .goto .sDir)
  | .sDir =>
    let t := s.chooseDirection
    (t.loadCmd (tripletFrame (tripletDirByte t.walk.d)), .goto (.sTrip (.cPre .pT0)))
  | .sTrip q =>
    let (l, f) := cmdPoint s.ctl.cmd q s.link
    (s.withLink l, f.within .sTrip fun
      | .ok => .goto .sDecode
      | .timeout => .goto .sFail)
  | .sDecode => (s, .goto .sAbsent)
  | .sAbsent => (s, .goto (if noDevice s.link.snap then .sFail else .sZero))
  | .sZero => (s.trackZero, .goto .sStore)
  | .sStore => (s.storeBit, .goto .sAdv)
  | .sAdv =>
    let t := { s with walk := s.walk.advance }
    (t, .goto (if t.walk.more then .sDir else .sFin))
  | .sFin => (s.endWalk, .goto .sAllzero)
  | .sAllzero => (s, .goto (if s.search.allZero then .sFail else .sReg))
  | .sReg => (s.register, .goto .sFound)
  | .sFound => (s, .done (.found (romToId s.search.rom)))
  | .sFail => (s.searchFail, .done .exhausted)

/-- The result of an entry point: `FOUND` with the identifier, or `EXHAUSTED` with `RES_ID` unchanged (R180). -/
def State.reportSearch (s : State) : SearchResult → State
  | .found id => (s.setResId id).finish .found
  | .exhausted => s.finish .exhausted

/-- A program point of the search step an entry point makes. -/
def State.callSearch (s : State) (p : SearchPt) (stay : SearchPt → Fsm) : State :=
  match searchPoint p s with
  | (t, .goto q) => t.goto (stay q)
  | (t, .done r) => t.reportSearch r

/-- `SEARCH_FIRST` (R180): the Search State is cleared, then a search step runs. -/
def execSearchFirst (arg : Byte) (s : State) : Host.Outcome State Fault Refusal :=
  match s.ctl.fsm with
  | .dispatch => .next ({ s with search := s.search.reset }.enter arg (.searchFirst .sFresh))
  | .searchFirst p => .next (s.callSearch p .searchFirst)
  | _ => s.request (hostWordOf Op.searchFirst.code arg)

/-- `SEARCH_NEXT` (R181): a search step on the Search State as it stands. -/
def execSearchNext (arg : Byte) (s : State) : Host.Outcome State Fault Refusal :=
  match s.ctl.fsm with
  | .dispatch => .next (s.enter arg (.searchNext .sFresh))
  | .searchNext p => .next (s.callSearch p .searchNext)
  | _ => s.request (hostWordOf Op.searchNext.code arg)

/-- Control after a search step of the enumeration: another step after `Found`, the end after `Exhausted` (R197). -/
def enumAfter : SearchResult → EnumPt
  | .found _ => .eNext .sFresh
  | .exhausted => .eDone

/-- `ENUMERATE` (R197): `first()`, then `next()` until it reports exhaustion; the result is the registry's count. -/
def execEnumerate (arg : Byte) (s : State) : Host.Outcome State Fault Refusal :=
  match s.ctl.fsm with
  | .dispatch => .next ({ s with search := s.search.reset }.enter arg (.enumerate (.eFirst .sFresh)))
  | .enumerate (.eFirst p) =>
    match searchPoint p s with
    | (t, .goto q) => .next (t.goto (.enumerate (.eFirst q)))
    | (t, .done r) => .next (t.goto (.enumerate (enumAfter r)))
  | .enumerate (.eNext p) =>
    match searchPoint p s with
    | (t, .goto q) => .next (t.goto (.enumerate (.eNext q)))
    | (t, .done r) => .next (t.goto (.enumerate (enumAfter r)))
  | .enumerate .eDone => .next ((s.setResCount s.registry.count).finish .ok)
  | _ => s.request (hostWordOf Op.enumerate.code arg)

end Sys2Proof.Machine
end

