-- ==== Sys2Proof/Machine/Dispatch.lean ====
section
/-! DEFINITION. The meaning of each instruction, one arm a constructor. -/

namespace Sys2Proof.Machine

def exec (i : Instr) (s : State) : Host.Outcome State Fault Refusal :=
  match i with
  | .owReset arg => Sys2Proof.Machine.execOwReset arg s
  | .busyWait arg => Sys2Proof.Machine.execBusyWait arg s
  | .readReg arg => Sys2Proof.Machine.execReadReg arg s
  | .writeByte arg => Sys2Proof.Machine.execWriteByte arg s
  | .readByte arg => Sys2Proof.Machine.execReadByte arg s
  | .triplet arg => Sys2Proof.Machine.execTriplet arg s
  | .devReset arg => Sys2Proof.Machine.execDevReset arg s
  | .cfgWrite arg => Sys2Proof.Machine.execCfgWrite arg s
  | .searchFirst arg => Sys2Proof.Machine.execSearchFirst arg s
  | .searchNext arg => Sys2Proof.Machine.execSearchNext arg s
  | .enumerate arg => Sys2Proof.Machine.execEnumerate arg s
  | .regLookup arg => Sys2Proof.Machine.execRegLookup arg s
  | .regGetall arg => Sys2Proof.Machine.execRegGetall arg s
  | .reserved0 arg => Sys2Proof.Machine.execReserved0 arg s
  | .reservedE arg => Sys2Proof.Machine.execReservedE arg s
  | .reservedF arg => Sys2Proof.Machine.execReservedF arg s
  | .brDeviceReset => Sys2Proof.Machine.execBrDeviceReset s
  | .brSetReadPointer param => Sys2Proof.Machine.execBrSetReadPointer param s
  | .brConfigWrite param => Sys2Proof.Machine.execBrConfigWrite param s
  | .brChannelSelect param => Sys2Proof.Machine.execBrChannelSelect s param
  | .brBusReset => Sys2Proof.Machine.execBrBusReset s
  | .brWriteByte param => Sys2Proof.Machine.execBrWriteByte param s
  | .brReadByte => Sys2Proof.Machine.execBrReadByte s
  | .brTriplet param => Sys2Proof.Machine.execBrTriplet param s
  | .ptrStatus => Sys2Proof.Machine.execPtrStatus s
  | .ptrData => Sys2Proof.Machine.execPtrData s
  | .ptrChannel => Sys2Proof.Machine.execPtrChannel s
  | .ptrConfig => Sys2Proof.Machine.execPtrConfig s
  | .busSearch => Sys2Proof.Machine.execBusSearch s
  | .busMatchRom => Sys2Proof.Machine.execBusMatchRom s

end Sys2Proof.Machine
end

