-- ==== Sys2Proof/Machine/HostPort.lean ====
section
/-! DEFINITION. The host's side of the interface (spec 10_state R35, 60_exceptions R260): what it may write and read. -/

namespace Sys2Proof.Machine

/-- The host writes `CW`: accepted in IDLE, refused and without effect while an operation runs (R35, R76). -/
def hostWriteCw (w : CmdWord) (s : State) : Host.Outcome State Fault Refusal := s.request w

/-- The host writes `ARG_ID`; a request accepted before has latched its own copy (R35, R76). -/
def hostWriteArgId (v : RomId) (s : State) : State := { s with port := { s.port with argId := v } }

/-- The host reads `STATUS.run` (R35). -/
def hostReadRun (s : State) : Bool := s.run

/-- The host reads `RES_CODE` (R35, R111). -/
def hostReadResCode (s : State) : BitVec 4 := s.port.resCode.bits

/-- The host reads `RES_BYTE`, `RES_ID`, `RES_COUNT` (R35). -/
def hostReadResByte (s : State) : Byte := s.port.resByte
def hostReadResId (s : State) : RomId := s.port.resId
def hostReadResCount (s : State) : BitVec 5 := s.port.resCount

/-- The host reads `REGCOUNT` (R35). -/
def hostReadRegCount (s : State) : BitVec 5 := s.registry.count

/-- The host reads a registry slot; an index past the last slot is refused (R35, R64). -/
def hostReadSlot (i : Nat) (s : State) : Except Refusal RomId :=
  if i < Config.regN then .ok (s.registry.slot i) else .error .noSuchSlot

/-- What happens at the top-level points. In IDLE the block does nothing (R34); the host performs its next write, if it has
one (R260: it waits for completion before the next request). In COMPLETE the block goes to IDLE (R34). -/
def State.rest (s : State) : State :=
  match s.ctl.fsm, s.host with
  | .idle, .cw w :: later => { s with host := later }.accept w
  | .idle, .argId v :: later => hostWriteArgId v { s with host := later }
  | .idle, [] => s
  | _, _ => s.retire

end Sys2Proof.Machine
end

