-- ==== Sys2Proof/Machine/Step.lean ====
section
/-! DEFINITION. One step of the machine: one program point (spec 10_state R34). -/

namespace Sys2Proof.Machine

/-- One program point: the fetched instruction is executed; at IDLE and COMPLETE there is none. -/
def step (s : State) : Host.Outcome State Fault Refusal :=
  match s.fetched with
  | none => .next s.rest
  | some (.ok i) => exec i s
  | some (.error e) => .fault (.noSuchCommand e)

/-- The state with the instruction of a table word placed where the next step fetches it. -/
def State.withFetchWord (s : State) (nbits w : Nat) : State := s.place (tableCode nbits w)

end Sys2Proof.Machine
end

