-- ==== Sys2Proof/Safety.lean ====
section
/-! DEFINITION. The terms claims are stated in: runs, and the invariants of the control state, the Search State, the
registry, the command latch and the link. -/

namespace Sys2Proof.Machine

/-- Some number of steps leads from one state to the other. -/
def Reaches (s t : State) : Prop := ∃ k, Sys2Proof.core.run k s = .next t

/-- The event of sending a frame to the bridge (R10). -/
def sent (f : Frame) : Event := .linkWrite Config.bridgeAddr f

/-- The event of a `LinkRead` answered `v` (R10). -/
def got (v : Byte) : Event := .linkRead Config.bridgeAddr v

/-- The two events of a status read answered `v`, newest first (R151). -/
def statusRead (v : Byte) : List Event := [got v, sent (selectFrame statusPtr)]

/-- Search State, walk temporaries, registry and the host's waiting writes are the same in both states. -/
def State.SameStore (s t : State) : Prop :=
  t.search = s.search ∧ t.walk = s.walk ∧ t.registry = s.registry ∧ t.host = s.host

/-- The machine has just taken up a host word: it is in DISPATCH with this instruction in `CW` (R34). -/
def State.Dispatching (s : State) (i : Instr) : Prop :=
  s.ctl.fsm = .dispatch ∧ encode i = .hostWord s.port.cw

/-- The environment is E_IDEAL, its bridge idle, in this variant and with these devices, one tick per sample (R82, R88). -/
def State.OnIdeal (s : State) (v : IdealVariant) (devices : List RomId) : Prop :=
  ∃ e, s.link.env = .ideal e ∧ e.variant = v ∧ e.devices = devices ∧ e.tickStep = 1 ∧ busy e.status = false

/-- The next answers of an oracle environment (R10). -/
def State.WillAnswer (s : State) (answers : List Byte) : Prop :=
  ∃ rest steps now, s.link.env = .oracle ⟨answers ++ rest, steps, now⟩

/-- A host operation or a reserved code: an instruction of the host word layer (R100). -/
def HostLevel (i : Instr) : Prop := ∃ w, encode i = .hostWord w

/-- The program point of `search_step()` the machine is at, if it is in one. -/
def Control.searchPt (c : Control) : Option SearchPt :=
  match c.fsm with
  | .searchFirst p | .searchNext p | .enumerate (.eFirst p) | .enumerate (.eNext p) => some p
  | _ => none

/-- The registry's canonical form (R29): occupied slots first and not zero, empty slots zero. -/
def Registry.wf (r : Registry) : Prop :=
  r.count.toNat ≤ Config.regN ∧
  (∀ i, i < r.count.toNat → r.slot i ≠ 0) ∧
  (∀ i, r.count.toNat ≤ i → r.slot i = 0)

/-- The registry is in canonical form, and an identifier about to be registered is not zero (R29, R194). -/
def State.RegistryOk (s : State) : Prop :=
  s.registry.wf ∧ (s.ctl.searchPt = some .sReg → romToId s.search.rom ≠ 0)

/-- The three forms of the Search State between operations (R25). -/
def SearchState.Between (x : SearchState) : Prop :=
  x.isEmpty = true ∨
  (1 ≤ x.lastDiscrepancy.toNat ∧ x.lastDiscrepancy.toNat ≤ 64 ∧ x.lastDeviceFlag = false) ∨
  (x.lastDiscrepancy = 0 ∧ x.lastDeviceFlag = true)

/-- The walk temporaries agree with one another (R26). -/
def Walk.Coherent (w : Walk) : Prop :=
  1 ≤ w.n.toNat ∧ w.n.toNat ≤ 64 ∧ w.byteIdx.toNat = byteIdxOf w.n.toNat ∧ w.mask = maskOf w.n.toNat

/-- What the Search State and the walk temporaries satisfy at each program point (R22, R23, R25, R26). -/
def State.SearchOk (s : State) : Prop :=
  s.search.lastDiscrepancy.toNat ≤ 64 ∧ s.search.lastFamilyDiscrepancy.toNat ≤ 8 ∧
  match s.ctl.searchPt with
  | none | some .sFresh | some .sLdf => s.search.Between
  | some (.sReset _) | some (.sCmd _) | some .sInit => s.search.lastDeviceFlag = false
  | some .sDir | some (.sTrip _) | some .sDecode | some .sAbsent | some .sZero =>
    s.search.lastDeviceFlag = false ∧ s.walk.Coherent ∧ s.walk.lastZero.toNat < s.walk.n.toNat
  | some .sStore | some .sAdv =>
    s.search.lastDeviceFlag = false ∧ s.walk.Coherent ∧ s.walk.lastZero.toNat ≤ s.walk.n.toNat
  | some .sFin => s.search.lastDeviceFlag = false ∧ s.walk.lastZero.toNat ≤ 64
  | some .sAllzero | some .sReg | some .sFound =>
    (1 ≤ s.search.lastDiscrepancy.toNat ∧ s.search.lastDeviceFlag = false) ∨
    (s.search.lastDiscrepancy = 0 ∧ s.search.lastDeviceFlag = true)
  | some .sFail => True

/-- A `Cmd` call that has not sent its command yet. -/
def CmdPt.pending : CmdPt → Bool
  | .cPre _ | .cIssue => true
  | .cPost _ | .cOk | .cFail => false

/-- What the search step's `Cmd` calls send: the search command, and the triplet of the preferred direction (R186, R188). -/
def searchCmdOk (d : Bool) (cmd : Frame) : SearchPt → Prop
  | .sCmd p => p.pending = true → cmd = writeByteFrame searchCommand
  | .sTrip p => p.pending = true → cmd = tripletFrame (tripletDirByte d)
  | _ => True

/-- The command latch holds the command of the operation that runs (R156 to R160, R186, R188). -/
def State.CmdOk (s : State) : Prop :=
  match s.ctl.fsm with
  | .writeByte p => p.pending = true → s.ctl.cmd = writeByteFrame s.ctl.arg
  | .readByte p => p.pending = true → s.ctl.cmd = readByteFrame
  | .triplet p => p.pending = true → s.ctl.cmd = tripletFrame (tripletDirByte (directionOf s.ctl.arg))
  | .devReset p => p.pending = true → s.ctl.cmd = deviceResetFrame
  | .cfgWrite p => p.pending = true → s.ctl.cmd = configWriteFrame (configByte (configFlags s.ctl.arg))
  | .searchFirst p | .searchNext p | .enumerate (.eFirst p) | .enumerate (.eNext p) =>
    searchCmdOk s.walk.d s.ctl.cmd p
  | _ => True

/-- The last two events are a status read that answered `SNAP`. -/
def Link.Sampled (l : Link) : Prop :=
  ∃ rest, l.trace = .linkRead Config.bridgeAddr l.snap :: .linkWrite Config.bridgeAddr (selectFrame statusPtr) :: rest

/-- The last two events are a status read that showed busy = 0: nothing was sent since (R72). -/
def Link.PolledIdle (l : Link) : Prop := l.Sampled ∧ busy l.snap = false

/-- A status read between its two transactions has just selected the status register (R150). -/
def ReadPt.LinkOk (p : ReadPt) (l : Link) : Prop :=
  match p with
  | .rrSel => True
  | .rrRd => ∃ rest, l.trace = .linkWrite Config.bridgeAddr (selectFrame statusPtr) :: rest

/-- What the link shows at each point of a poll (R152). -/
def PollPt.LinkOk (cond : Cond) (p : PollPt) (l : Link) : Prop :=
  match p with
  | .pT0 | .pTimeout => True
  | .pSample r => r.LinkOk l
  | .pTest | .pTime => l.Sampled
  | .pOk => l.Sampled ∧ cond.holds l.snap = true

/-- What the link shows at each point of `Cmd`: the bridge was seen idle before the command and after it (R72, R154). -/
def CmdPt.LinkOk (p : CmdPt) (l : Link) : Prop :=
  match p with
  | .cPre q | .cPost q => q.LinkOk .notBusy l
  | .cIssue | .cOk => l.PolledIdle
  | .cFail => True

/-- What the link shows at each point of `reset()` (R72, R140). -/
def ResetPt.LinkOk (p : ResetPt) (l : Link) : Prop :=
  match p with
  | .brIssue | .brFalse => True
  | .brPpd q => q.LinkOk .presence l
  | .brBusy q => q.LinkOk .notBusy l
  | .brTrue => l.PolledIdle

/-- What the link shows at each point of the search step; the snapshot a walk decodes is the one taken after its triplet
(R31, R188). -/
def SearchPt.LinkOk (p : SearchPt) (l : Link) : Prop :=
  match p with
  | .sReset q => q.LinkOk l
  | .sCmd q | .sTrip q => q.LinkOk l
  | .sDecode | .sAbsent | .sZero | .sStore => l.PolledIdle
  | _ => True

/-- The busy-wait discipline of R72, at every program point. -/
def State.LinkOk (s : State) : Prop :=
  match s.ctl.fsm with
  | .owReset p => p.LinkOk s.link
  | .busyWait p | .readRegWait p => p.LinkOk .notBusy s.link
  | .writeByte p | .readByte p | .triplet p | .devReset p | .cfgWrite p => p.LinkOk s.link
  | .searchFirst p | .searchNext p | .enumerate (.eFirst p) | .enumerate (.eNext p) => p.LinkOk s.link
  | _ => True

/-- A poll's start tick is not ahead of the tick source, so elapsed time is never negative (R11, R152). -/
def State.ClockOk (s : State) : Prop := s.link.t0 ≤ s.link.env.clock

/-- A frame the block may send: a well-formed bridge command other than channel-select (R113, R114). -/
def FrameAllowed (f : Frame) : Prop :=
  ∃ i, decodeFrame f = .ok i ∧ i.wellFormed = true ∧ ∀ p, i ≠ .brChannelSelect p

/-- One identifier is walked before another: at the first position where they differ it has 0 (R198). -/
def WalkedBefore (x y : RomId) : Prop :=
  ∃ n < 64, (∀ m < n, x.getLsbD m = y.getLsbD m) ∧ x.getLsbD n = false ∧ y.getLsbD n = true

end Sys2Proof.Machine
end

