-- ==== Sys2Proof/Certificates/Slice0/Obligations.lean ====
section
/-! DEFINITION. The statements for the provers. Each docstring names the rules of spec/ it formalises; OBLIGATIONS.json holds
their titles, tiers and quotes. Where a statement rests on a choice of the model the docstring names the log entry. -/

open Sys2Proof Sys2Proof.Machine

/-! ### Encodings -/

/-- R102, R103, R104, R109, R110: for every instruction, at every value of its operand, decoding its encoding gives it back: no
bit of an encoding is dropped. -/
def Obligations.DecodeEncodeRoundTrip : Prop := ∀ i : Instr, decode (encode i) = .ok i

/-- R102, R103, R104, R109, R110: a word that decodes is the encoding of what it decodes to, so no two words of a layer share
a meaning and no operand bit is ignored by the decoder. -/
def Obligations.EncodeDecodeRoundTrip : Prop := ∀ (c : Code) (i : Instr), decode c = .ok i → encode i = c

/-- R109, R110, R102, R103, R104: the twenty host words of vector V-D5 and one word of every other layer. -/
def Obligations.SampleWordsDecode : Prop :=
  decode (.hostWord 0x100) = .ok (.owReset 0x00) ∧ decode (.hostWord 0x20A) = .ok (.busyWait 10) ∧
  decode (.hostWord 0x3C3) = .ok (.readReg 0xC3) ∧ decode (.hostWord 0x4F0) = .ok (.writeByte 0xF0) ∧
  decode (.hostWord 0x500) = .ok (.readByte 0x00) ∧ decode (.hostWord 0x601) = .ok (.triplet 0x01) ∧
  decode (.hostWord 0x600) = .ok (.triplet 0x00) ∧ decode (.hostWord 0x700) = .ok (.devReset 0x00) ∧
  decode (.hostWord 0x801) = .ok (.cfgWrite 0x01) ∧ decode (.hostWord 0x80D) = .ok (.cfgWrite 0x0D) ∧
  decode (.hostWord 0x900) = .ok (.searchFirst 0x00) ∧ decode (.hostWord 0xA00) = .ok (.searchNext 0x00) ∧
  decode (.hostWord 0xB00) = .ok (.enumerate 0x00) ∧ decode (.hostWord 0xC00) = .ok (.regLookup 0x00) ∧
  decode (.hostWord 0xD10) = .ok (.regGetall 16) ∧ decode (.hostWord 0x000) = .ok (.reserved0 0x00) ∧
  decode (.hostWord 0xE55) = .ok (.reservedE 0x55) ∧ decode (.hostWord 0xFFF) = .ok (.reservedF 0xFF) ∧
  decode (.hostWord 0x6FE) = .ok (.triplet 0xFE) ∧ decode (.hostWord 0x8F2) = .ok (.cfgWrite 0xF2) ∧
  decode (.bridge ⟨0x78, some 0x80⟩) = .ok (.brTriplet 0x80) ∧ decode (.bridge ⟨0xB4, none⟩) = .ok .brBusReset ∧
  decode (.pointer 0xC3) = .ok .ptrConfig ∧ decode (.bus 0xF0) = .ok .busSearch

/-- R115, R117: the code byte decides how many bytes a bridge command takes, and the high nibble of every command code and
pointer code is the complement of its low nibble. R115 gives channel-select no length; that it has a parameter is log entry 9
and is left out. -/
def Obligations.CommandLengthAndNibbles : Prop :=
  (∀ (p : Byte) (rest : List Byte),
    decodeBytes (0xF0 :: rest) = .ok (.brDeviceReset, rest) ∧ decodeBytes (0xB4 :: rest) = .ok (.brBusReset, rest) ∧
    decodeBytes (0x96 :: rest) = .ok (.brReadByte, rest) ∧
    decodeBytes (0xE1 :: p :: rest) = .ok (.brSetReadPointer p, rest) ∧
    decodeBytes (0xD2 :: p :: rest) = .ok (.brConfigWrite p, rest) ∧
    decodeBytes (0xA5 :: p :: rest) = .ok (.brWriteByte p, rest) ∧
    decodeBytes (0x78 :: p :: rest) = .ok (.brTriplet p, rest)) ∧
  (∀ i f, encode i = .bridge f → f.code.extractLsb' 4 4 = ~~~ f.code.extractLsb' 0 4) ∧
  (∀ i b, encode i = .pointer b → b.extractLsb' 4 4 = ~~~ b.extractLsb' 0 4)

/-- R103, R110: a word of the opcode table, placed where the machine fetches, is what the next step runs. The reading of a
word numbered as the table numbers it is the model's (log entry 10). -/
def Obligations.TableWordRunsItsInstruction : Prop :=
  ∀ (s : State) (nbits w : Nat) (i : Instr), decodeTableWord nbits w = some i →
    step (s.withFetchWord nbits w) = exec i (s.withFetchWord nbits w)

/-! ### Operands and representations -/

/-- R107: `f = (spd << 3) | (spu << 2) | (0 << 1) | apu`, the byte is `((~f & 0xF) << 4) | f`, and the table of all eight
values. -/
def Obligations.ConfigurationEncoding : Prop :=
  (∀ apu spu spd : Bool,
    let bit (b : Bool) : Byte := if b then 1 else 0
    let f : Byte := (bit spd <<< 3) ||| (bit spu <<< 2) ||| (0 <<< 1) ||| bit apu
    cfgEncode apu spu spd = ((~~~f &&& 0xF) <<< 4) ||| f) ∧
  cfgEncode false false false = 0xF0 ∧ cfgEncode true false false = 0xE1 ∧ cfgEncode false true false = 0xB4 ∧
  cfgEncode true true false = 0xA5 ∧ cfgEncode false false true = 0x78 ∧ cfgEncode true false true = 0x69 ∧
  cfgEncode false true true = 0x3C ∧ cfgEncode true true true = 0x2D

/-- R66: the buffer and the integer are two representations of one identifier, byte 0 the least significant. -/
def Obligations.IdentifierConversionIsLossless : Prop :=
  (∀ r : Rom, idToRom (romToId r) = r) ∧ (∀ id : RomId, romToId (idToRom id) = id) ∧
  (∀ (id : RomId) (i : Nat), i < 8 → romByte (idToRom id) i = id.extractLsb' (8 * i) 8)

/-- R65, R66: bit position `n` of the walk is bit `n - 1` of the integer identifier. -/
def Obligations.WalkPositionIsIdentifierBit : Prop :=
  ∀ (r : Rom) (n : Nat), 1 ≤ n → n ≤ 64 → romBit r (byteIdxOf n) (maskOf n) = (romToId r).getLsbD (n - 1)

/-! ### Control -/

/-- R34: one step runs the fetched instruction. In DISPATCH that is the word in `CW`; at a point that sends a frame, the
bridge command of the frame; at another point of an operation, that operation; in IDLE and COMPLETE none. R34 gives the
program points and where they go; that a step FETCHES an instruction there, a frame's bridge command included, and that the
host's waiting writes are performed in IDLE, is the model's rendering (log entries 5, 7, 8): the block fetches no
instructions (R76). -/
def Obligations.StepRunsTheFetchedInstruction : Prop :=
  (∀ (s : State) (i : Instr), s.fetched = some (.ok i) → step s = exec i s) ∧
  (∀ s : State, s.ctl.fsm = .dispatch → s.fetched = some (decode (.hostWord s.port.cw))) ∧
  (∀ (s : State) (f : Frame), s.ctl.issuing = some f → s.fetched = some (decode (.bridge f))) ∧
  (∀ (s : State) (i : Instr), s.ctl.issuing = none → s.ctl.running = some i → s.fetched = some (.ok i)) ∧
  (∀ s : State, s.ctl.fsm = .idle ∨ s.ctl.fsm = .complete → s.fetched = none ∧ step s = .next s.rest)

/-- R34: in IDLE with no host write to come nothing changes; COMPLETE goes to IDLE and changes nothing else. What the host's
waiting writes do in IDLE is the model's rendering of the host (log entry 5). -/
def Obligations.IdleAndComplete : Prop :=
  (∀ s : State, s.ctl.fsm = .idle → s.host = [] → step s = .next s) ∧
  (∀ s : State, s.ctl.fsm = .complete → step s = .next { s with ctl := { s.ctl with fsm := .idle } }) ∧
  (∀ (s : State) (w : CmdWord) (later : List HostWrite), s.ctl.fsm = .idle → s.host = .cw w :: later →
    step s = .next { s with
      port := { s.port with cw := w },
      ctl := { s.ctl with fsm := .dispatch, arg := w.extractLsb' 0 8, argId := s.port.argId },
      host := later }) ∧
  (∀ (s : State) (v : RomId) (later : List HostWrite), s.ctl.fsm = .idle → s.host = .argId v :: later →
    step s = .next { s with port := { s.port with argId := v }, host := later })

/-- R35, R76: a request is accepted in IDLE, where it writes `CW`, latches the operands `ARG8` and `ARG_ID` and moves to
DISPATCH, and refused while an operation runs or is completing. The last two clauses are the host's write of `CW`, for every
word. That `exec` of a host operation is such a request, in IDLE, in COMPLETE and while another operation runs, is the model's
choice (log entry 8); a request for the operation that is running has no `exec` of its own, and is refused by the clause
about the host's write. -/
def Obligations.RequestsOnlyInIdle : Prop :=
  let accepted (w : CmdWord) (s : State) : State := { s with
    port := { s.port with cw := w },
    ctl := { s.ctl with fsm := .dispatch, arg := w.extractLsb' 0 8, argId := s.port.argId } }
  (∀ (i : Instr) (w : CmdWord) (s : State), encode i = .hostWord w → s.ctl.fsm = .idle →
    exec i s = .next (accepted w s)) ∧
  (∀ (i j : Instr) (w w' : CmdWord) (s : State), encode i = .hostWord w → encode j = .hostWord w' →
    s.ctl.running = some j → opField w ≠ opField w' → exec i s = .refused .requestWhileRunning) ∧
  (∀ (i : Instr) (w : CmdWord) (s : State), encode i = .hostWord w → s.ctl.fsm = .complete →
    exec i s = .refused .requestWhileRunning) ∧
  (∀ (w : CmdWord) (s : State), s.ctl.fsm ≠ .idle → hostWriteCw w s = .refused .requestWhileRunning) ∧
  (∀ (w : CmdWord) (s : State), s.ctl.fsm = .idle → hostWriteCw w s = .next (accepted w s))

/-- R34, R76, R107, R112, R155 to R160, R180, R197: DISPATCH enters the first program point of the operation with the operand
`ARG8`; `ARG_ID` stays as acceptance latched it. The operations that are one command have their command bytes ready,
`READ_REG` skips the pre-wait for the status register, `first()` empties the Search State. That the command latch is loaded
and the Search State emptied in the DISPATCH step is log entry 7's choice, the triplet's direction byte log entry 11's. -/
def Obligations.DispatchEntersTheOperation : Prop :=
  ∀ (a : Byte) (s : State), s.ctl.fsm = .dispatch →
    let at' (f : Fsm) : Control := { s.ctl with fsm := f, arg := a }
    exec (.owReset a) s = .next { s with ctl := at' (.owReset .brIssue) } ∧
    exec (.busyWait a) s = .next { s with ctl := at' (.busyWait .pT0) } ∧
    exec (.readReg a) s = .next { s with ctl := at' (if a = 0xF0 then .readReg .rrSel else .readRegWait .pT0) } ∧
    exec (.writeByte a) s = .next { s with ctl := { at' (.writeByte (.cPre .pT0)) with cmd := ⟨0xA5, some a⟩ } } ∧
    exec (.readByte a) s = .next { s with ctl := { at' (.readByte (.cPre .pT0)) with cmd := ⟨0x96, none⟩ } } ∧
    exec (.triplet a) s = .next { s with ctl :=
      { at' (.triplet (.cPre .pT0)) with cmd := ⟨0x78, some (if a.getLsbD 0 then 0x80 else 0x00)⟩ } } ∧
    exec (.devReset a) s = .next { s with ctl := { at' (.devReset (.cPre .pT0)) with cmd := ⟨0xF0, none⟩ } } ∧
    exec (.cfgWrite a) s = .next { s with ctl :=
      { at' (.cfgWrite (.cPre .pT0)) with
        cmd := ⟨0xD2, some (cfgEncode (a.getLsbD 0) (a.getLsbD 2) (a.getLsbD 3))⟩ } } ∧
    exec (.searchFirst a) s = .next { s with
      search := { s.search with lastDiscrepancy := 0, lastFamilyDiscrepancy := 0, lastDeviceFlag := false },
      ctl := at' (.searchFirst .sFresh) } ∧
    exec (.searchNext a) s = .next { s with ctl := at' (.searchNext .sFresh) } ∧
    exec (.enumerate a) s = .next { s with
      search := { s.search with lastDiscrepancy := 0, lastFamilyDiscrepancy := 0, lastDeviceFlag := false },
      ctl := at' (.enumerate (.eFirst .sFresh)) } ∧
    exec (.regLookup a) s = .next { s with ctl := at' (.regLookup .gScan) } ∧
    exec (.regGetall a) s = .next { s with ctl := at' (.regGetall .gScan) }

/-- R114: a reserved operation code completes at once with `ILLEGAL`, whatever its `ARG8`; nothing else changes and no event
is emitted. -/
def Obligations.ReservedCodesAreIllegal : Prop :=
  ∀ (a : Byte) (s : State), s.ctl.fsm = .dispatch →
    let t : State := { s with port := { s.port with resCode := .illegal }, ctl := { s.ctl with fsm := .complete } }
    exec (.reserved0 a) s = .next t ∧ exec (.reservedE a) s = .next t ∧ exec (.reservedF a) s = .next t

/-- R10, R101, R102, R103, R104: a bridge command, a pointer code or a bus command is one `LinkWrite` of its bytes; the
environment receives them, control moves past the point that issues them, and nothing else changes. The parameter of
channel-select is log entry 9's, and so is the place of a pointer code or bus command on its own (log entry 10). -/
def Obligations.LinkInstructionsAreOneWrite : Prop :=
  ∀ (p : Byte) (s : State),
    let t (f : Frame) : State := { s with
      link := { s.link with env := s.link.env.receive f, trace := .linkWrite Config.bridgeAddr f :: s.link.trace },
      ctl := { s.ctl with fsm := s.ctl.fsm.issued } }
    exec .brDeviceReset s = .next (t ⟨0xF0, none⟩) ∧ exec (.brSetReadPointer p) s = .next (t ⟨0xE1, some p⟩) ∧
    exec (.brConfigWrite p) s = .next (t ⟨0xD2, some p⟩) ∧ exec (.brChannelSelect p) s = .next (t ⟨0xC3, some p⟩) ∧
    exec .brBusReset s = .next (t ⟨0xB4, none⟩) ∧ exec (.brWriteByte p) s = .next (t ⟨0xA5, some p⟩) ∧
    exec .brReadByte s = .next (t ⟨0x96, none⟩) ∧ exec (.brTriplet p) s = .next (t ⟨0x78, some p⟩) ∧
    exec .ptrStatus s = .next (t ⟨0xE1, some 0xF0⟩) ∧ exec .ptrData s = .next (t ⟨0xE1, some 0xE1⟩) ∧
    exec .ptrChannel s = .next (t ⟨0xE1, some 0xD2⟩) ∧ exec .ptrConfig s = .next (t ⟨0xE1, some 0xC3⟩) ∧
    exec .busSearch s = .next (t ⟨0xA5, some 0xF0⟩) ∧ exec .busMatchRom s = .next (t ⟨0xA5, some 0x55⟩)

/-- R101, R154: at a point that sends a frame, the operation does what the frame's bridge command does. -/
def Obligations.IssuePointRunsItsCommand : Prop :=
  ∀ (s : State) (f : Frame) (i : Instr), s.ctl.issuing = some f → s.ctl.running = some i →
    exec i s = .next (s.issue f)

/-! ### Operations of the bridge command layer -/

/-- R140: the two ways `reset()` ends as a host operation; either of its polls timing out goes to `BR_FALSE`, the presence poll
without a busy poll after it; and the run in which the presence flag is 1 on the first sample and busy is 0 on the next. -/
def Obligations.OwResetResult : Prop :=
  (∀ (a : Byte) (s : State), s.ctl.fsm = .owReset .brTrue → exec (.owReset a) s =
    .next { s with port := { s.port with resCode := .ok }, ctl := { s.ctl with fsm := .complete } }) ∧
  (∀ (a : Byte) (s : State), s.ctl.fsm = .owReset .brFalse → exec (.owReset a) s =
    .next { s with port := { s.port with resCode := .absent }, ctl := { s.ctl with fsm := .complete } }) ∧
  (∀ (a : Byte) (s : State), s.ctl.fsm = .owReset (.brPpd .pTimeout) ∨ s.ctl.fsm = .owReset (.brBusy .pTimeout) →
    exec (.owReset a) s = .next { s with ctl := { s.ctl with fsm := .owReset .brFalse } }) ∧
  (∀ (a : Byte) (s : State) (v0 v1 : Byte), s.Dispatching (.owReset a) → s.WillAnswer [v0, v1] →
    ppd v0 = true → busy v1 = false →
    ∃ t τ0 τ1, Reaches s t ∧ t.ctl.fsm = .idle ∧ t.port = { s.port with resCode := .ok } ∧ s.SameStore t ∧
      t.link.trace = statusRead v1 ++ .tick τ1 :: statusRead v0 ++ .tick τ0 :: sent ⟨0xB4, none⟩ :: s.link.trace)

/-- R153: `BUSY_WAIT` ends with the last status byte sampled as its byte result, `OK` or `TIMEOUT`; with busy 0 on the first
sample it takes one sample and no time test. -/
def Obligations.BusyWaitResult : Prop :=
  (∀ (a : Byte) (s : State), s.ctl.fsm = .busyWait .pOk → exec (.busyWait a) s =
    .next { s with port := { s.port with resCode := .ok, resByte := s.link.snap }, ctl := { s.ctl with fsm := .complete } }) ∧
  (∀ (a : Byte) (s : State), s.ctl.fsm = .busyWait .pTimeout → exec (.busyWait a) s =
    .next { s with
      port := { s.port with resCode := .timeout, resByte := s.link.snap }, ctl := { s.ctl with fsm := .complete } }) ∧
  (∀ (a : Byte) (s : State) (v : Byte), s.Dispatching (.busyWait a) → s.WillAnswer [v] → busy v = false →
    ∃ t τ, Reaches s t ∧ t.ctl.fsm = .idle ∧ t.port = { s.port with resCode := .ok, resByte := v } ∧ s.SameStore t ∧
      t.link.trace = statusRead v ++ .tick τ :: s.link.trace)

/-- R140, R152, R153: what `Poll` does at each of its program points: in `BUSY_WAIT`, whose condition is busy = 0 and whose
budget is `ARG8`, and in the two polls of `OW_RESET`, for presence with the budget `T_RESET` and then for busy = 0 with
`T_BUSY`. -/
def Obligations.PollPoints : Prop :=
  ∀ (a : Byte) (s : State),
    let on (l : Link) (f : Fsm) : State := { s with link := l, ctl := { s.ctl with fsm := f } }
    let polls (i : Instr) (at' : PollPt → Fsm) (holds : Byte → Bool) (budget : Nat) (ok timeout : State) : Prop :=
      (s.ctl.fsm = at' .pT0 → exec i s = .next (on s.link.startPoll (at' (.pSample .rrSel))) ∧
        s.link.startPoll.t0 = s.link.now) ∧
      (s.ctl.fsm = at' (.pSample .rrSel) →
        exec i s = .next (on (s.link.write ⟨0xE1, some 0xF0⟩) (at' (.pSample .rrRd)))) ∧
      (s.ctl.fsm = at' (.pSample .rrRd) → exec i s = .next (on (s.link.read 0xF0) (at' .pTest)) ∧
        (s.link.read 0xF0).snap = s.link.env.answer s.link.trace) ∧
      (s.ctl.fsm = at' .pTest →
        exec i s = .next (on s.link (if holds s.link.snap = true then at' .pOk else at' .pTime))) ∧
      (s.ctl.fsm = at' .pTime → exec i s =
        .next (on s.link.tick (if s.link.now - s.link.t0 ≥ budget then at' .pTimeout else at' (.pSample .rrSel)))) ∧
      (s.ctl.fsm = at' .pOk → exec i s = .next ok) ∧
      (s.ctl.fsm = at' .pTimeout → exec i s = .next timeout)
    let waited (c : ResCode) : State :=
      { s with port := { s.port with resCode := c, resByte := s.link.snap }, ctl := { s.ctl with fsm := .complete } }
    polls (.busyWait a) .busyWait (fun v => !v.getLsbD 0) a.toNat (waited .ok) (waited .timeout) ∧
    polls (.owReset a) (fun p => .owReset (.brPpd p)) (fun v => v.getLsbD 1) Config.tReset
      (on s.link (.owReset (.brBusy .pT0))) (on s.link (.owReset .brFalse)) ∧
    polls (.owReset a) (fun p => .owReset (.brBusy p)) (fun v => !v.getLsbD 0) Config.tBusy
      (on s.link (.owReset .brTrue)) (on s.link (.owReset .brFalse))

/-- R150, R155: `READ_REG` reads the register its operand names, unchecked; with busy 0 on the first sample the pre-wait is one
sample, and reading the status register has none. -/
def Obligations.ReadRegResult : Prop :=
  (∀ (a : Byte) (s : State), s.ctl.fsm = .readReg .rrRd → exec (.readReg a) s =
    .next { s with
      link := s.link.read a,
      port := { s.port with resCode := .ok, resByte := s.link.env.answer s.link.trace },
      ctl := { s.ctl with fsm := .complete } }) ∧
  (∀ (a : Byte) (s : State), s.ctl.fsm = .readRegWait .pTimeout → exec (.readReg a) s =
    .next { s with port := { s.port with resCode := .timeout }, ctl := { s.ctl with fsm := .complete } }) ∧
  (∀ (a : Byte) (s : State) (v0 v : Byte), a ≠ 0xF0 → s.Dispatching (.readReg a) → s.WillAnswer [v0, v] → busy v0 = false →
    ∃ t τ, Reaches s t ∧ t.ctl.fsm = .idle ∧ t.port = { s.port with resCode := .ok, resByte := v } ∧ s.SameStore t ∧
      t.link.trace = got v :: sent ⟨0xE1, some a⟩ :: statusRead v0 ++ .tick τ :: s.link.trace) ∧
  (∀ (s : State) (v : Byte), s.Dispatching (.readReg 0xF0) → s.WillAnswer [v] →
    ∃ t, Reaches s t ∧ t.ctl.fsm = .idle ∧ t.port = { s.port with resCode := .ok, resByte := v } ∧ s.SameStore t ∧
      t.link.trace = statusRead v ++ s.link.trace)

/-- R154, R156, R157, R158, R159: how the operations that are one command end. `TRIPLET` returns the last status sample,
`READ_BYTE` the byte it reads from the data register after its command; `WRITE_BYTE` and `DEV_RESET` write `RES_CODE`
alone. -/
def Obligations.CommandOperationsComplete : Prop :=
  (∀ (a : Byte) (s : State), s.ctl.fsm = .writeByte .cOk → exec (.writeByte a) s =
    .next { s with port := { s.port with resCode := .ok }, ctl := { s.ctl with fsm := .complete } }) ∧
  (∀ (a : Byte) (s : State), s.ctl.fsm = .triplet .cOk → exec (.triplet a) s =
    .next { s with port := { s.port with resCode := .ok, resByte := s.link.snap }, ctl := { s.ctl with fsm := .complete } }) ∧
  (∀ (a : Byte) (s : State), s.ctl.fsm = .devReset .cOk → exec (.devReset a) s =
    .next { s with port := { s.port with resCode := .ok }, ctl := { s.ctl with fsm := .complete } }) ∧
  (∀ (a : Byte) (s : State), s.ctl.fsm = .readByteData .rrRd → exec (.readByte a) s =
    .next { s with
      link := s.link.read 0xE1,
      port := { s.port with resCode := .ok, resByte := s.link.env.answer s.link.trace },
      ctl := { s.ctl with fsm := .complete } })

/-- R154, R241, R245: a wait of a command that times out, the one before the command or the one after it, goes to `C_FAIL`
without an event, so after a timed-out pre-wait the command is not sent; `C_FAIL` ends the operation with `TIMEOUT`, and no
other result register changes. -/
def Obligations.CommandTimeoutReported : Prop :=
  ∀ (a : Byte) (s : State),
    let ends (i : Instr) (at' : CmdPt → Fsm) : Prop :=
      (s.ctl.fsm = at' (.cPre .pTimeout) ∨ s.ctl.fsm = at' (.cPost .pTimeout) →
        exec i s = .next { s with ctl := { s.ctl with fsm := at' .cFail } }) ∧
      (s.ctl.fsm = at' .cFail → exec i s =
        .next { s with port := { s.port with resCode := .timeout }, ctl := { s.ctl with fsm := .complete } })
    ends (.writeByte a) .writeByte ∧ ends (.readByte a) .readByte ∧ ends (.triplet a) .triplet ∧
    ends (.devReset a) .devReset ∧ ends (.cfgWrite a) .cfgWrite

/-- R154, R156, R159: with the bridge idle on every sample, `WRITE_BYTE` and `DEV_RESET` wait, send their command, wait, and
end `OK`; no other state of the block changes. -/
def Obligations.WriteByteAndDevResetRun : Prop :=
  ∀ (i : Instr) (f : Frame) (s : State) (v0 v1 : Byte),
    ((∃ a, i = .writeByte a ∧ f = ⟨0xA5, some a⟩) ∨ (∃ a, i = .devReset a ∧ f = ⟨0xF0, none⟩)) →
    s.Dispatching i → s.WillAnswer [v0, v1] → busy v0 = false → busy v1 = false →
    ∃ t τ0 τ1, Reaches s t ∧ t.ctl.fsm = .idle ∧ t.port = { s.port with resCode := .ok } ∧ s.SameStore t ∧
      t.link.trace = statusRead v1 ++ .tick τ1 :: sent f :: statusRead v0 ++ .tick τ0 :: s.link.trace

/-- R157: `READ_BYTE` sends read-byte between two waits and then reads the data register. -/
def Obligations.ReadByteRun : Prop :=
  ∀ (a : Byte) (s : State) (v0 v1 v : Byte), s.Dispatching (.readByte a) → s.WillAnswer [v0, v1, v] →
    busy v0 = false → busy v1 = false →
    ∃ t τ0 τ1, Reaches s t ∧ t.ctl.fsm = .idle ∧ t.port = { s.port with resCode := .ok, resByte := v } ∧ s.SameStore t ∧
      t.link.trace = got v :: sent ⟨0xE1, some 0xE1⟩ :: statusRead v1 ++ .tick τ1 :: sent ⟨0x96, none⟩ ::
        statusRead v0 ++ .tick τ0 :: s.link.trace

/-- R112, R158: `TRIPLET` sends the direction of bit 0 of `ARG8` and returns the first idle status byte read after the command,
both read bits 1 or not. -/
def Obligations.TripletRun : Prop :=
  ∀ (a : Byte) (s : State) (v0 v1 : Byte), s.Dispatching (.triplet a) → s.WillAnswer [v0, v1] →
    busy v0 = false → busy v1 = false →
    ∃ t τ0 τ1, Reaches s t ∧ t.ctl.fsm = .idle ∧ t.port = { s.port with resCode := .ok, resByte := v1 } ∧ s.SameStore t ∧
      t.link.trace = statusRead v1 ++ .tick τ1 :: sent ⟨0x78, some (if a.getLsbD 0 then 0x80 else 0x00)⟩ ::
        statusRead v0 ++ .tick τ0 :: s.link.trace

/-- R108, R160: `CFG_WRITE` writes the configuration byte of bits 0, 2, 3 of `ARG8`, reads the register back, and ends `OK` iff
the low nibble read is the one written, `MISMATCH` otherwise; the byte read back is the byte result. -/
def Obligations.CfgWriteResult : Prop :=
  (∀ (a : Byte) (s : State), s.ctl.fsm = .cfgCompare → exec (.cfgWrite a) s =
    .next { s with
      port := { s.port with
        resCode := if s.link.rd.extractLsb' 0 4 = (cfgEncode (a.getLsbD 0) (a.getLsbD 2) (a.getLsbD 3)).extractLsb' 0 4
          then .ok else .mismatch
        resByte := s.link.rd },
      ctl := { s.ctl with fsm := .complete } }) ∧
  (∀ (a : Byte) (s : State) (v0 v1 r : Byte), s.Dispatching (.cfgWrite a) → s.WillAnswer [v0, v1, r] →
    busy v0 = false → busy v1 = false →
    let b := cfgEncode (a.getLsbD 0) (a.getLsbD 2) (a.getLsbD 3)
    ∃ t τ0 τ1, Reaches s t ∧ t.ctl.fsm = .idle ∧ s.SameStore t ∧
      t.port = { s.port with
        resCode := if r.extractLsb' 0 4 = b.extractLsb' 0 4 then .ok else .mismatch, resByte := r } ∧
      t.link.trace = got r :: sent ⟨0xE1, some 0xC3⟩ :: statusRead v1 ++ .tick τ1 :: sent ⟨0xD2, some b⟩ ::
        statusRead v0 ++ .tick τ0 :: s.link.trace)

/-- R82, R88, R152, R153 and source example 4: against E_STUCK, whose busy flag is stuck and whose tick source advances by one
each sample, `BUSY_WAIT` reports `TIMEOUT` after exactly as
many samples as its budget has ticks (one for a budget of 0), not earlier and not indefinitely. -/
def Obligations.StuckBusyWaitTimesOutOnTime : Prop :=
  ∀ (a : Byte) (s : State) (devices : List RomId), s.Dispatching (.busyWait a) → s.OnIdeal .stuck devices →
    ∃ t new, Reaches s t ∧ t.ctl.fsm = .idle ∧ t.port.resCode = .timeout ∧ busy t.port.resByte = true ∧
      t.port.resId = s.port.resId ∧ t.port.resCount = s.port.resCount ∧ s.SameStore t ∧
      t.link.trace = new ++ s.link.trace ∧ new.length = 3 * max a.toNat 1 + 1

/-- R82, R88, R154, R241: against E_STUCK, one tick each sample, every operation that is a command ends `TIMEOUT` in its pre-wait and its command is
never sent: every frame sent is a selection of the status register. -/
def Obligations.StuckBridgeNeverGetsTheCommand : Prop :=
  ∀ (i : Instr) (s : State) (devices : List RomId),
    (∃ a, i = .writeByte a ∨ i = .readByte a ∨ i = .triplet a ∨ i = .devReset a ∨ i = .cfgWrite a) →
    s.Dispatching i → s.OnIdeal .stuck devices →
    ∃ t new, Reaches s t ∧ t.ctl.fsm = .idle ∧ t.port = { s.port with resCode := .timeout } ∧ s.SameStore t ∧
      t.link.trace = new ++ s.link.trace ∧ new.length = 3 * Config.tBusy + 1 ∧
      ∀ f, sent f ∈ new → f = ⟨0xE1, some 0xF0⟩

/-! ### The search -/

/-- R180, R181, R197: the three search operations run the search step, one program point a step; a found device is reported as
`FOUND` with its identifier, exhaustion as `EXHAUSTED` with `RES_ID` unchanged, and the enumeration goes on to another step
after `Found`, ends after `Exhausted`, and returns the registry's count. -/
def Obligations.SearchOperationsRunTheStep : Prop :=
  ∀ (a : Byte) (s s' : State) (p q : SearchPt) (id : RomId),
    let fin (t : State) (c : ResCode) : State :=
      { t with port := { t.port with resCode := c }, ctl := { t.ctl with fsm := .complete } }
    let moved (t : State) (f : Fsm) : State := { t with ctl := { t.ctl with fsm := f } }
    (searchPoint p s = (s', .goto q) →
      (s.ctl.fsm = .searchFirst p → exec (.searchFirst a) s = .next (moved s' (.searchFirst q))) ∧
      (s.ctl.fsm = .searchNext p → exec (.searchNext a) s = .next (moved s' (.searchNext q))) ∧
      (s.ctl.fsm = .enumerate (.eFirst p) → exec (.enumerate a) s = .next (moved s' (.enumerate (.eFirst q)))) ∧
      (s.ctl.fsm = .enumerate (.eNext p) → exec (.enumerate a) s = .next (moved s' (.enumerate (.eNext q))))) ∧
    (searchPoint p s = (s', .done (.found id)) →
      (s.ctl.fsm = .searchFirst p →
        exec (.searchFirst a) s = .next (fin { s' with port := { s'.port with resId := id } } .found)) ∧
      (s.ctl.fsm = .searchNext p →
        exec (.searchNext a) s = .next (fin { s' with port := { s'.port with resId := id } } .found)) ∧
      (s.ctl.fsm = .enumerate (.eFirst p) → exec (.enumerate a) s = .next (moved s' (.enumerate (.eNext .sFresh)))) ∧
      (s.ctl.fsm = .enumerate (.eNext p) → exec (.enumerate a) s = .next (moved s' (.enumerate (.eNext .sFresh))))) ∧
    (searchPoint p s = (s', .done .exhausted) →
      (s.ctl.fsm = .searchFirst p → exec (.searchFirst a) s = .next (fin s' .exhausted)) ∧
      (s.ctl.fsm = .searchNext p → exec (.searchNext a) s = .next (fin s' .exhausted)) ∧
      (s.ctl.fsm = .enumerate (.eFirst p) → exec (.enumerate a) s = .next (moved s' (.enumerate .eDone))) ∧
      (s.ctl.fsm = .enumerate (.eNext p) → exec (.enumerate a) s = .next (moved s' (.enumerate .eDone)))) ∧
    (s.ctl.fsm = .enumerate .eDone → exec (.enumerate a) s =
      .next (fin { s with port := { s.port with resCount := s.registry.count } } .ok))

/-- R184, R185, R186, R188, R195, R196: the two exits of the search step, as the two entry points report them: `Found` of the
buffer's identifier after it was appended to the registry, and the failure exit, which empties the Search State and touches
neither the buffer, the registry nor the bridge. And how the step leaves the calls it makes, in any environment: `reset()`
false, a timeout of the search command or of a triplet, and `LastDeviceFlag` set on entry go to the failure exit; otherwise
the search command, the first position and the decode follow. Two other ways into the failure exit are in NoDeviceAborts and
AllZeroIdentifierFails. That the search command is loaded at the point before it is log entry 7's choice. -/
def Obligations.SearchStepExits : Prop :=
  ∀ (a : Byte) (s : State),
    (s.ctl.fsm = .searchFirst .sReg → exec (.searchFirst a) s = .next { s with
      registry := s.registry.append (romToId s.search.rom), ctl := { s.ctl with fsm := .searchFirst .sFound } }) ∧
    (s.ctl.fsm = .searchNext .sReg → exec (.searchNext a) s = .next { s with
      registry := s.registry.append (romToId s.search.rom), ctl := { s.ctl with fsm := .searchNext .sFound } }) ∧
    (s.ctl.fsm = .searchFirst .sFound → exec (.searchFirst a) s = .next { s with
      port := { s.port with resCode := .found, resId := romToId s.search.rom }, ctl := { s.ctl with fsm := .complete } }) ∧
    (s.ctl.fsm = .searchNext .sFound → exec (.searchNext a) s = .next { s with
      port := { s.port with resCode := .found, resId := romToId s.search.rom }, ctl := { s.ctl with fsm := .complete } }) ∧
    (s.ctl.fsm = .searchFirst .sFail → exec (.searchFirst a) s = .next { s with
      search := { s.search with lastDiscrepancy := 0, lastFamilyDiscrepancy := 0, lastDeviceFlag := false },
      port := { s.port with resCode := .exhausted }, ctl := { s.ctl with fsm := .complete } }) ∧
    (s.ctl.fsm = .searchNext .sFail → exec (.searchNext a) s = .next { s with
      search := { s.search with lastDiscrepancy := 0, lastFamilyDiscrepancy := 0, lastDeviceFlag := false },
      port := { s.port with resCode := .exhausted }, ctl := { s.ctl with fsm := .complete } }) ∧
    searchPoint .sLdf s = (s, .goto (if s.search.lastDeviceFlag = true then .sFail else .sReset .brIssue)) ∧
    searchPoint (.sReset .brFalse) s = (s, .goto .sFail) ∧
    searchPoint (.sReset .brTrue) s =
      ({ s with ctl := { s.ctl with cmd := ⟨0xA5, some 0xF0⟩ } }, .goto (.sCmd (.cPre .pT0))) ∧
    searchPoint (.sReset (.brPpd .pTimeout)) s = (s, .goto (.sReset .brFalse)) ∧
    searchPoint (.sReset (.brBusy .pTimeout)) s = (s, .goto (.sReset .brFalse)) ∧
    searchPoint (.sCmd (.cPre .pTimeout)) s = (s, .goto (.sCmd .cFail)) ∧
    searchPoint (.sCmd (.cPost .pTimeout)) s = (s, .goto (.sCmd .cFail)) ∧
    searchPoint (.sCmd .cFail) s = (s, .goto .sFail) ∧ searchPoint (.sCmd .cOk) s = (s, .goto .sInit) ∧
    searchPoint (.sTrip (.cPre .pTimeout)) s = (s, .goto (.sTrip .cFail)) ∧
    searchPoint (.sTrip (.cPost .pTimeout)) s = (s, .goto (.sTrip .cFail)) ∧
    searchPoint (.sTrip .cFail) s = (s, .goto .sFail) ∧ searchPoint (.sTrip .cOk) s = (s, .goto .sDecode)

/-- R183, R221: a step entered with `LastDiscrepancy` 0 and `LastDeviceFlag` false clears every slot and the count before
anything else; a step entered otherwise leaves the registry. -/
def Obligations.FreshPassClearsTheRegistry : Prop :=
  ∀ s : State,
    (s.search.lastDiscrepancy = 0 ∧ s.search.lastDeviceFlag = false →
      searchPoint .sFresh s = ({ s with registry := ⟨Vector.replicate 16 0, 0⟩ }, .goto .sLdf)) ∧
    (¬ (s.search.lastDiscrepancy = 0 ∧ s.search.lastDeviceFlag = false) → searchPoint .sFresh s = (s, .goto .sLdf))

/-- R112, R187, R188: the preferred direction of position `n`: the stored bit below `LastDiscrepancy`, 1 at it, 0 above it,
judged against the buffer and the `LastDiscrepancy` the previous step left, neither of which this point changes; the triplet
that follows is sent with that direction. That its bytes are loaded at this point is log entry 7's choice, the direction byte
log entry 11's (PRESUMED). -/
def Obligations.TieBreakRule : Prop :=
  ∀ s : State, s.walk.Coherent →
    ∃ d, searchPoint .sDir s =
        ({ s with
            walk := { s.walk with d := d },
            ctl := { s.ctl with cmd := ⟨0x78, some (if d then 0x80 else 0x00)⟩ } }, .goto (.sTrip (.cPre .pT0))) ∧
      (s.walk.n < s.search.lastDiscrepancy → d = (romToId s.search.rom).getLsbD (s.walk.n.toNat - 1)) ∧
      (s.walk.n = s.search.lastDiscrepancy → d = true) ∧
      (s.search.lastDiscrepancy < s.walk.n → d = false)

/-- R188, R189: both read bits 1 abort the walk before anything of the position is recorded; any other snapshot goes on. -/
def Obligations.NoDeviceAborts : Prop :=
  ∀ s : State,
    searchPoint .sDecode s = (s, .goto .sAbsent) ∧
    searchPoint .sAbsent s =
      (s, .goto (if s.link.snap.getLsbD 5 = true ∧ s.link.snap.getLsbD 6 = true then .sFail else .sZero))

/-- R190: a discrepancy written as 0 records `n` as `last_zero`, and as `LastFamilyDiscrepancy` within the first 8 positions;
anything else is not recorded. -/
def Obligations.DiscrepancyTracking : Prop :=
  ∀ s : State,
    let zero := s.link.snap.getLsbD 5 = false ∧ s.link.snap.getLsbD 6 = false ∧ s.link.snap.getLsbD 7 = false
    (zero ∧ s.walk.n.toNat ≤ 8 → searchPoint .sZero s =
      ({ s with
          walk := { s.walk with lastZero := s.walk.n },
          search := { s.search with lastFamilyDiscrepancy := s.walk.n } }, .goto .sStore)) ∧
    (zero ∧ 8 < s.walk.n.toNat → searchPoint .sZero s =
      ({ s with walk := { s.walk with lastZero := s.walk.n } }, .goto .sStore)) ∧
    (¬ zero → searchPoint .sZero s = (s, .goto .sStore))

/-- R191: the bit of position `n` becomes the direction the bridge wrote; the other 63 bits and all other state are
unchanged. -/
def Obligations.StoreWritesTheReportedBit : Prop :=
  ∀ s : State, s.walk.Coherent →
    ∃ rom, searchPoint .sStore s = ({ s with search := { s.search with rom := rom } }, .goto .sAdv) ∧
      ∀ m, 1 ≤ m → m ≤ 64 → (romToId rom).getLsbD (m - 1) =
        if m = s.walk.n.toNat then s.link.snap.getLsbD 7 else (romToId s.search.rom).getLsbD (m - 1)

/-- R192: each advance goes to the next position, and the walk goes on for `n = 1..64` and ends with `n = 65` and
`byte_idx = 8` after exactly 64 of them. -/
def Obligations.AdvanceWalksAllPositions : Prop :=
  (∀ s : State, searchPoint .sAdv s =
    ({ s with walk := s.walk.advance }, .goto (if s.walk.advance.more then .sDir else .sFin))) ∧
  (∀ s : State, searchPoint .sInit s = ({ s with walk := s.walk.init }, .goto .sDir)) ∧
  (∀ (w : Walk) (k : Nat), k ≤ 64 →
    let v := Nat.iterate Walk.advance k w.init
    v.n.toNat = k + 1 ∧ v.byteIdx.toNat = k / 8 ∧ v.mask = 1#8 <<< (k % 8) ∧ v.lastZero = 0 ∧ v.d = w.d ∧
    (v.more = true ↔ k < 64))

/-- R193: at the end of a complete walk `LastDiscrepancy` is `last_zero`, and `LastDeviceFlag` becomes true iff that is 0 and
keeps its value otherwise. -/
def Obligations.EndOfWalk : Prop :=
  ∀ s : State,
    (s.walk.lastZero = 0 → searchPoint .sFin s =
      ({ s with search := { s.search with lastDiscrepancy := 0, lastDeviceFlag := true } }, .goto .sAllzero)) ∧
    (s.walk.lastZero ≠ 0 → searchPoint .sFin s =
      ({ s with search := { s.search with lastDiscrepancy := s.walk.lastZero } }, .goto .sAllzero))

/-- R194: an all-zero identifier, over all 64 bits, goes to the failure exit; any other to registration. -/
def Obligations.AllZeroIdentifierFails : Prop :=
  ∀ s : State,
    (romToId s.search.rom = 0 → searchPoint .sAllzero s = (s, .goto .sFail)) ∧
    (romToId s.search.rom ≠ 0 → searchPoint .sAllzero s = (s, .goto .sReg))

/-- R184: with `LastDeviceFlag` set, `SEARCH_NEXT` resets the Search State and reports exhaustion; no bus reset, no link event,
the registry untouched. The same of a `next()` the enumeration makes, which then returns the registry's count. -/
def Obligations.NextAfterLastDevice : Prop :=
  (∀ (a : Byte) (s : State), s.Dispatching (.searchNext a) → s.search.lastDeviceFlag = true →
    ∃ t, Reaches s t ∧ t.ctl.fsm = .idle ∧ t.link = s.link ∧ t.registry = s.registry ∧ t.walk = s.walk ∧ t.host = s.host ∧
      t.search = { s.search with lastDiscrepancy := 0, lastFamilyDiscrepancy := 0, lastDeviceFlag := false } ∧
      t.port = { s.port with resCode := .exhausted }) ∧
  (∀ s : State, s.ctl.fsm = .enumerate (.eNext .sFresh) → s.search.lastDeviceFlag = true →
    ∃ t, Reaches s t ∧ t.ctl.fsm = .idle ∧ t.link = s.link ∧ t.registry = s.registry ∧ t.walk = s.walk ∧ t.host = s.host ∧
      t.search = { s.search with lastDiscrepancy := 0, lastFamilyDiscrepancy := 0, lastDeviceFlag := false } ∧
      t.port = { s.port with resCode := .ok, resCount := s.registry.count })

/-- R82, R83, R84, R140, R185, R197 and source example 1: on a bus without devices `ENUMERATE` returns 0 after one bus reset whose presence
poll uses up its budget; the registry and the Search State end empty. The environment is E_IDEAL, the spec's reference
environment. -/
def Obligations.EmptyBusEnumeratesToZero : Prop :=
  ∀ (a : Byte) (s : State), s.Dispatching (.enumerate a) → s.OnIdeal .plain [] →
    ∃ t new, Reaches s t ∧ t.ctl.fsm = .idle ∧ t.port = { s.port with resCode := .ok, resCount := 0 } ∧
      t.registry = ⟨Vector.replicate 16 0, 0⟩ ∧ t.search.isEmpty = true ∧ t.search.rom = s.search.rom ∧
      t.link.trace = new ++ sent ⟨0xB4, none⟩ :: s.link.trace ∧ new.length = 3 * Config.tReset + 1 ∧
      ∀ f, sent f ∈ new → f = ⟨0xE1, some 0xF0⟩

/-- R82 to R86, R180, R198: on E_IDEAL with any non-empty set of non-zero identifiers, `SEARCH_FIRST` finds the one that comes
first in walk order, registers it in slot 0 of a cleared registry, and sets `LastDeviceFlag` iff it is the only one. -/
def Obligations.FirstSearchFindsTheFirstDevice : Prop :=
  ∀ (a : Byte) (s : State) (devices : List RomId), s.Dispatching (.searchFirst a) → s.OnIdeal .plain devices →
    devices ≠ [] → (0 : RomId) ∉ devices →
    ∃ t id, Reaches s t ∧ t.ctl.fsm = .idle ∧ id ∈ devices ∧ (∀ y ∈ devices, y ≠ id → WalkedBefore id y) ∧
      t.port = { s.port with resCode := .found, resId := id } ∧ romToId t.search.rom = id ∧
      t.registry.count = 1 ∧ t.registry.slot 0 = id ∧ (∀ i, 1 ≤ i → t.registry.slot i = 0) ∧
      (t.search.lastDeviceFlag = true ↔ ∀ y ∈ devices, y = id)

/-- R82 to R86, R197, R198 and source example 2: a whole pass over a bus with one device: `ENUMERATE` returns 1, the device is
in slot 0, and the Search State ends empty. -/
def Obligations.SingleDevicePass : Prop :=
  ∀ (a : Byte) (s : State) (id : RomId), s.Dispatching (.enumerate a) → s.OnIdeal .plain [id] → id ≠ 0 →
    ∃ t, Reaches s t ∧ t.ctl.fsm = .idle ∧ t.port = { s.port with resCode := .ok, resCount := 1 } ∧
      t.registry.count = 1 ∧ t.registry.slot 0 = id ∧ (∀ i, 1 ≤ i → t.registry.slot i = 0) ∧
      t.search.isEmpty = true ∧ t.search.rom = idToRom id

/-- R82 to R86, R197, R198 and the first testable property of the source: on E_IDEAL with at most 16 distinct non-zero
identifiers (with no device too) `ENUMERATE` counts them all and leaves them in the registry in walk order, with the Search State
empty. -/
def Obligations.EnumerationIsCompleteAndOrdered : Prop :=
  ∀ (a : Byte) (s : State) (devices : List RomId), s.Dispatching (.enumerate a) → s.OnIdeal .plain devices →
    devices.Nodup → (0 : RomId) ∉ devices → devices.length ≤ 16 →
    ∃ (t : State) (ids : List RomId), Reaches s t ∧ t.ctl.fsm = .idle ∧ ids.Perm devices ∧ ids.Pairwise WalkedBefore ∧
      t.registry.count.toNat = devices.length ∧ (∀ i, t.registry.slot i = ids[i]?.getD 0) ∧
      t.port = { s.port with resCode := .ok, resCount := t.registry.count } ∧ t.search.isEmpty = true

/-! ### The registry -/

/-- R220: an append fills the next free slot and counts it; with the registry full it changes nothing. -/
def Obligations.AppendFillsTheNextSlot : Prop :=
  (∀ (r : Registry) (id : RomId), r.count.toNat < 16 →
    (r.append id).count.toNat = r.count.toNat + 1 ∧ (r.append id).slot r.count.toNat = id ∧
    ∀ i, i ≠ r.count.toNat → (r.append id).slot i = r.slot i) ∧
  (∀ (r : Registry) (id : RomId), 16 ≤ r.count.toNat → r.append id = r)

/-- R222: `REG_LOOKUP` answers the lowest occupied slot that holds the latched identifier, or `NOT_FOUND` with `RES_COUNT`
unchanged; the registry and everything else are unchanged; in a registry of canonical form identifier 0 is never found. -/
def Obligations.LookupFindsTheLowestSlot : Prop :=
  (∀ (a : Byte) (s : State) (i : Nat), s.ctl.fsm = .regLookup .gScan → i < s.registry.count.toNat →
    s.registry.slot i = s.ctl.argId → (∀ j < i, s.registry.slot j ≠ s.ctl.argId) →
    exec (.regLookup a) s = .next { s with
      port := { s.port with resCode := .found, resCount := BitVec.ofNat 5 i }, ctl := { s.ctl with fsm := .complete } }) ∧
  (∀ (a : Byte) (s : State), s.ctl.fsm = .regLookup .gScan →
    (∀ i < s.registry.count.toNat, s.registry.slot i ≠ s.ctl.argId) →
    exec (.regLookup a) s = .next { s with ctl := { s.ctl with fsm := .regLookup .gDone } }) ∧
  (∀ (a : Byte) (s : State), s.ctl.fsm = .regLookup .gDone → exec (.regLookup a) s = .next { s with
      port := { s.port with resCode := .notFound }, ctl := { s.ctl with fsm := .complete } }) ∧
  (∀ (a : Byte) (s : State), s.Dispatching (.regLookup a) →
    (∀ i < s.registry.count.toNat, s.registry.slot i ≠ s.ctl.argId) →
    ∃ t, Reaches s t ∧ t.ctl.fsm = .idle ∧ t.port = { s.port with resCode := .notFound } ∧ s.SameStore t ∧ t.link = s.link) ∧
  (∀ (a : Byte) (s : State), s.Dispatching (.regLookup a) → s.registry.wf → s.ctl.argId = 0 →
    ∃ t, Reaches s t ∧ t.ctl.fsm = .idle ∧ t.port = { s.port with resCode := .notFound } ∧ s.SameStore t ∧ t.link = s.link)

/-- R34, R35, R223: `REG_GETALL` answers the smaller of the count and the capacity; the identifiers are the first that many
slots in order; nothing else changes and no event is emitted. The result registers are written as the operation returns, at
`G_DONE`; that `G_SCAN` before it changes control alone is log entry 7's choice. -/
def Obligations.GetAllCountsTheSlots : Prop :=
  (∀ (a : Byte) (s : State), s.ctl.fsm = .regGetall .gScan → exec (.regGetall a) s = .next { s with
      ctl := { s.ctl with fsm := .regGetall .gDone } }) ∧
  (∀ (a : Byte) (s : State), s.ctl.fsm = .regGetall .gDone → exec (.regGetall a) s = .next { s with
      port := { s.port with resCode := .ok, resCount := BitVec.ofNat 5 (min s.registry.count.toNat a.toNat) },
      ctl := { s.ctl with fsm := .complete } }) ∧
  (∀ (a : Byte) (s : State), s.Dispatching (.regGetall a) →
    ∃ t, Reaches s t ∧ t.ctl.fsm = .idle ∧ s.SameStore t ∧ t.link = s.link ∧ ∃ n : BitVec 5,
      t.port = { s.port with resCode := .ok, resCount := n } ∧ n.toNat = min s.registry.count.toNat a.toNat ∧
      (s.registry.sequence a.toNat).length = n.toNat ∧
      ∀ i < n.toNat, (s.registry.sequence a.toNat)[i]? = some (s.registry.slot i))

/-- R64: a host read of a slot that exists gives its contents; one of a slot that does not is refused. That a read is answered
in every state, also while a search runs, is log entry 15's choice (R260 tells the host not to read then). -/
def Obligations.HostSlotRead : Prop :=
  ∀ (i : Nat) (s : State),
    (i < 16 → hostReadSlot i s = .ok (s.registry.slot i)) ∧ (16 ≤ i → hostReadSlot i s = .error .noSuchSlot)

/-! ### Invariants and rules of the whole machine -/

/-- R29, R194, R225: every step keeps the registry's canonical form. -/
def Obligations.RegistryStaysCanonical : Prop :=
  ∀ s t : State, s.RegistryOk → step s = .next t → t.RegistryOk

/-- R22, R23, R24, R25, R26: every step keeps the ranges of the Search State, its three forms between operations, and the
agreement of the walk temporaries. -/
def Obligations.SearchStateStaysLegal : Prop :=
  ∀ s t : State, s.SearchOk → step s = .next t → t.SearchOk

/-- R113, R114, R156 to R160, R186, R188: the command latch always holds the command of the operation that runs; so no step
faults or is refused, and every frame sent is well formed and never channel-select but for the pointer a host passes to
`READ_REG`, which is not checked. -/
def Obligations.EveryStepAnswersAndSendsItsCommand : Prop :=
  ∀ s : State, s.CmdOk →
    ∃ t, step s = .next t ∧ t.CmdOk ∧ ∀ f, t.link.trace = sent f :: s.link.trace → FrameAllowed f

/-- R31, R72, R154: the busy-wait discipline is kept, and a command other than set-read-pointer and the bus reset is sent only
when the two events before it are a status read that showed busy = 0. -/
def Obligations.CommandsOnlyToAnIdleBridge : Prop :=
  ∀ s t : State, s.LinkOk → step s = .next t →
    t.LinkOk ∧ ∀ f, t.link.trace = sent f :: s.link.trace → f.code ≠ 0xE1 → f ≠ ⟨0xB4, none⟩ → s.link.PolledIdle

/-- R10, R32, R254: the tick source never goes back, and a poll's start tick is never ahead of it. -/
def Obligations.ClockNeverGoesBack : Prop :=
  ∀ s t : State, step s = .next t → s.link.env.clock ≤ t.link.env.clock ∧ (s.ClockOk → t.ClockOk)

/-- R34, R71: a step adds at most one event to the trace and takes none away. -/
def Obligations.AtMostOneEventPerStep : Prop :=
  ∀ s t : State, step s = .next t → t.link.trace = s.link.trace ∨ ∃ e, t.link.trace = e :: s.link.trace

/-- R34, R35, R110: each result register is written only by the operations whose rule names it, `RES_CODE` by host operations
alone; all four keep their values in every step but the one in which an operation returns and enters COMPLETE. -/
def Obligations.ResultRegistersHaveTheirWriters : Prop :=
  (∀ (i : Instr) (s t : State), exec i s = .next t →
    (t.port.resCode = s.port.resCode ∨ HostLevel i) ∧
    (t.port.resByte = s.port.resByte ∨
      ∃ a, i = .busyWait a ∨ i = .readReg a ∨ i = .readByte a ∨ i = .triplet a ∨ i = .cfgWrite a) ∧
    (t.port.resId = s.port.resId ∨ ∃ a, i = .searchFirst a ∨ i = .searchNext a) ∧
    (t.port.resCount = s.port.resCount ∨ ∃ a, i = .enumerate a ∨ i = .regLookup a ∨ i = .regGetall a) ∧
    (t.port.argId = s.port.argId) ∧ (t.port.cw = s.port.cw ∨ s.ctl.fsm = .idle)) ∧
  (∀ s t : State, step s = .next t →
    (t.port.resCode = s.port.resCode ∧ t.port.resByte = s.port.resByte ∧ t.port.resId = s.port.resId ∧
      t.port.resCount = s.port.resCount) ∨
    (s.ctl.fsm ≠ .idle ∧ s.ctl.fsm ≠ .complete ∧ t.ctl.fsm = .complete))

/-- R25, R39, R225: only a search operation changes the Search State, the walk temporaries or the registry; the registry
changes only at a fresh pass or a registration, and `LastDeviceFlag` becomes true only at the end of a walk with
`last_zero` 0. -/
def Obligations.OnlyTheSearchWritesItsState : Prop :=
  ∀ (i : Instr) (s t : State), exec i s = .next t →
    ((∃ a, i = .searchFirst a ∨ i = .searchNext a ∨ i = .enumerate a) ∨
      (t.search = s.search ∧ t.walk = s.walk ∧ t.registry = s.registry)) ∧
    (t.registry = s.registry ∨ s.ctl.searchPt = some .sFresh ∨ s.ctl.searchPt = some .sReg) ∧
    (s.search.lastDeviceFlag = false → t.search.lastDeviceFlag = true →
      s.ctl.searchPt = some .sFin ∧ s.walk.lastZero = 0)

/-- R35, R76: from acceptance on, DISPATCH included, a host write of `ARG_ID` changes nothing of what the operation does: the
two runs stay equal but for `ARG_ID` itself. The two runs get the same answers from the environment, the free ones included,
which is log entry 4's choice. -/
def Obligations.ArgIdWriteDoesNotReachTheOperation : Prop :=
  ∀ (v : RomId) (s t : State), s.ctl.fsm ≠ .idle → step s = .next t →
    step (hostWriteArgId v s) = .next (hostWriteArgId v t)

/-- R270, R271: the power-on values the spec gives, and no event. The values of the temporaries are the model's (log entry 1)
and are left out. -/
def Obligations.PowerOnValues : Prop :=
  (∀ i, romByte State.reset.search.rom i = 0) ∧ State.reset.search.isEmpty = true ∧
  (∀ i, State.reset.registry.slot i = 0) ∧ State.reset.registry.count = 0 ∧ State.reset.ctl.fsm = .idle ∧
  State.reset.port = { cw := 0, argId := 0, resCode := .none, resByte := 0, resId := 0, resCount := 0 } ∧
  State.reset.port.resCode.bits = 0x0 ∧ State.reset.run = false ∧ State.reset.link.trace = []

/-- R25, R26, R29, R72: the power-on state meets every invariant. That `t0` is not ahead of the tick source there rests on the
values the model gives both (log entries 1, 3). -/
def Obligations.PowerOnMeetsTheInvariants : Prop :=
  State.reset.RegistryOk ∧ State.reset.SearchOk ∧ State.reset.CmdOk ∧ State.reset.LinkOk ∧ State.reset.ClockOk

/-! ### The reference environment -/

/-- R79, R86: E_IDEAL's triplet reports the wired-AND bits of the active devices and writes the read bit when the two differ and
the preferred direction otherwise; the devices whose bit differs leave the search; bits 0 to 4 of the status are kept. Outside positions 1 to 64, where R86
states no bit, it rests on log entry 17's choice. -/
def Obligations.IdealTripletTable : Prop :=
  ∀ (e : Ideal) (d : Bool), e.variant = .plain →
    let e' := e.triplet d
    (sbr e'.status = true ↔ ∀ x ∈ e.active, x.getLsbD (e.pos - 1) = true) ∧
    (tsb e'.status = true ↔ ∀ x ∈ e.active, x.getLsbD (e.pos - 1) = false) ∧
    dir e'.status = (if sbr e'.status = tsb e'.status then d else sbr e'.status) ∧
    (∀ i < 5, e'.status.getLsbD i = e.status.getLsbD i) ∧
    (∀ x, x ∈ e'.active ↔ x ∈ e.active ∧ x.getLsbD (e.pos - 1) = dir e'.status) ∧
    e'.pos = e.pos + 1 ∧ e'.devices = e.devices

/-- R83, R84, R85, R87, R88: what the other commands do to E_IDEAL, what its registers read, and what the variants E_STUCK,
E_LOW and E_BADCFG make of a read. That read-byte leaves 0xFF in mode search too, where a slave may drive the bus, is log
entry 18's choice. -/
def Obligations.IdealCommands : Prop :=
  (∀ (e : Ideal) (v : Byte), e.variant = .plain →
    (e.receive ⟨0xE1, some 0xF0⟩).answer = e.status ∧ (e.receive ⟨0xE1, some 0xC3⟩).answer = e.config ∧
    (e.receive ⟨0xE1, some 0xE1⟩).answer = e.data ∧
    (v ≠ 0xF0 → v ≠ 0xC3 → v ≠ 0xE1 → (e.receive ⟨0xE1, some v⟩).answer = 0x00) ∧
    (e.receive ⟨0xB4, none⟩).active = e.devices ∧ (e.receive ⟨0xB4, none⟩).mode = .idle ∧
    (ppd (e.receive ⟨0xB4, none⟩).status = true ↔ e.devices ≠ []) ∧
    (∀ i, i ≠ 1 → (e.receive ⟨0xB4, none⟩).status.getLsbD i = e.status.getLsbD i) ∧
    (e.mode = .idle → (e.receive ⟨0xA5, some 0xF0⟩).mode = .search ∧ (e.receive ⟨0xA5, some 0xF0⟩).pos = 1) ∧
    (v ≠ 0xF0 → (e.receive ⟨0xA5, some v⟩).mode = e.mode ∧ (e.receive ⟨0xA5, some v⟩).pos = e.pos) ∧
    (e.receive ⟨0xF0, none⟩).status = 0x10 ∧ (e.receive ⟨0xF0, none⟩).config = 0x00 ∧
    (e.receive ⟨0xD2, some v⟩).config = v &&& 0x0F ∧ (e.receive ⟨0x96, none⟩).data = 0xFF) ∧
  (∀ e : Ideal, e.variant = .stuck → busy (e.receive ⟨0xE1, some 0xF0⟩).answer = true ∧
    ∀ i, i ≠ 0 → (e.receive ⟨0xE1, some 0xF0⟩).answer.getLsbD i = e.status.getLsbD i) ∧
  (∀ e : Ideal, e.variant = .low → ppd (e.receive ⟨0xE1, some 0xF0⟩).answer = true ∧
    ∀ i, i ≠ 1 → (e.receive ⟨0xE1, some 0xF0⟩).answer.getLsbD i = e.status.getLsbD i) ∧
  (∀ (e : Ideal) (v : Byte), e.variant = .badCfg v → (e.receive ⟨0xE1, some 0xC3⟩).answer = v)
end

