-- ==== Sys2Proof/Laws/State.lean ====
section
/-! SUPPORT. One lemma per field per named update of the state, true by rfl. -/

namespace Sys2Proof.Machine

variable (s : State)

@[simp] theorem State.goto_search (f : Fsm) : (s.goto f).search = s.search := rfl
@[simp] theorem State.goto_walk (f : Fsm) : (s.goto f).walk = s.walk := rfl
@[simp] theorem State.goto_registry (f : Fsm) : (s.goto f).registry = s.registry := rfl
@[simp] theorem State.goto_port (f : Fsm) : (s.goto f).port = s.port := rfl
@[simp] theorem State.goto_ctl (f : Fsm) : (s.goto f).ctl = { s.ctl with fsm := f } := rfl
@[simp] theorem State.goto_link (f : Fsm) : (s.goto f).link = s.link := rfl
@[simp] theorem State.goto_host (f : Fsm) : (s.goto f).host = s.host := rfl

@[simp] theorem State.withLink_search (l : Link) : (s.withLink l).search = s.search := rfl
@[simp] theorem State.withLink_walk (l : Link) : (s.withLink l).walk = s.walk := rfl
@[simp] theorem State.withLink_registry (l : Link) : (s.withLink l).registry = s.registry := rfl
@[simp] theorem State.withLink_port (l : Link) : (s.withLink l).port = s.port := rfl
@[simp] theorem State.withLink_ctl (l : Link) : (s.withLink l).ctl = s.ctl := rfl
@[simp] theorem State.withLink_link (l : Link) : (s.withLink l).link = l := rfl
@[simp] theorem State.withLink_host (l : Link) : (s.withLink l).host = s.host := rfl

@[simp] theorem State.loadCmd_search (f : Frame) : (s.loadCmd f).search = s.search := rfl
@[simp] theorem State.loadCmd_walk (f : Frame) : (s.loadCmd f).walk = s.walk := rfl
@[simp] theorem State.loadCmd_registry (f : Frame) : (s.loadCmd f).registry = s.registry := rfl
@[simp] theorem State.loadCmd_port (f : Frame) : (s.loadCmd f).port = s.port := rfl
@[simp] theorem State.loadCmd_ctl (f : Frame) : (s.loadCmd f).ctl = { s.ctl with cmd := f } := rfl
@[simp] theorem State.loadCmd_link (f : Frame) : (s.loadCmd f).link = s.link := rfl
@[simp] theorem State.loadCmd_host (f : Frame) : (s.loadCmd f).host = s.host := rfl

@[simp] theorem State.accept_search (w : CmdWord) : (s.accept w).search = s.search := rfl
@[simp] theorem State.accept_walk (w : CmdWord) : (s.accept w).walk = s.walk := rfl
@[simp] theorem State.accept_registry (w : CmdWord) : (s.accept w).registry = s.registry := rfl
@[simp] theorem State.accept_port (w : CmdWord) : (s.accept w).port = { s.port with cw := w } := rfl
@[simp] theorem State.accept_ctl (w : CmdWord) : (s.accept w).ctl =
    { s.ctl with fsm := .dispatch, arg := arg8Field w, argId := s.port.argId } := rfl
@[simp] theorem State.accept_link (w : CmdWord) : (s.accept w).link = s.link := rfl
@[simp] theorem State.accept_host (w : CmdWord) : (s.accept w).host = s.host := rfl

@[simp] theorem State.enter_search (arg : Byte) (f : Fsm) : (s.enter arg f).search = s.search := rfl
@[simp] theorem State.enter_walk (arg : Byte) (f : Fsm) : (s.enter arg f).walk = s.walk := rfl
@[simp] theorem State.enter_registry (arg : Byte) (f : Fsm) : (s.enter arg f).registry = s.registry := rfl
@[simp] theorem State.enter_port (arg : Byte) (f : Fsm) : (s.enter arg f).port = s.port := rfl
@[simp] theorem State.enter_ctl (arg : Byte) (f : Fsm) : (s.enter arg f).ctl = { s.ctl with fsm := f, arg := arg } := rfl
@[simp] theorem State.enter_link (arg : Byte) (f : Fsm) : (s.enter arg f).link = s.link := rfl
@[simp] theorem State.enter_host (arg : Byte) (f : Fsm) : (s.enter arg f).host = s.host := rfl

@[simp] theorem State.finish_search (c : ResCode) : (s.finish c).search = s.search := rfl
@[simp] theorem State.finish_walk (c : ResCode) : (s.finish c).walk = s.walk := rfl
@[simp] theorem State.finish_registry (c : ResCode) : (s.finish c).registry = s.registry := rfl
@[simp] theorem State.finish_port (c : ResCode) : (s.finish c).port = { s.port with resCode := c } := rfl
@[simp] theorem State.finish_ctl (c : ResCode) : (s.finish c).ctl = { s.ctl with fsm := .complete } := rfl
@[simp] theorem State.finish_link (c : ResCode) : (s.finish c).link = s.link := rfl
@[simp] theorem State.finish_host (c : ResCode) : (s.finish c).host = s.host := rfl

@[simp] theorem State.raise_search (k : Failure) (o : Op) : (s.raise k o).search = s.search := rfl
@[simp] theorem State.raise_walk (k : Failure) (o : Op) : (s.raise k o).walk = s.walk := rfl
@[simp] theorem State.raise_registry (k : Failure) (o : Op) : (s.raise k o).registry = s.registry := rfl
@[simp] theorem State.raise_port (k : Failure) (o : Op) : (s.raise k o).port = { s.port with resCode := k.seenBy o } := rfl
@[simp] theorem State.raise_ctl (k : Failure) (o : Op) : (s.raise k o).ctl = { s.ctl with fsm := .complete } := rfl
@[simp] theorem State.raise_link (k : Failure) (o : Op) : (s.raise k o).link = s.link := rfl
@[simp] theorem State.raise_host (k : Failure) (o : Op) : (s.raise k o).host = s.host := rfl

@[simp] theorem State.retire_search : s.retire.search = s.search := rfl
@[simp] theorem State.retire_walk : s.retire.walk = s.walk := rfl
@[simp] theorem State.retire_registry : s.retire.registry = s.registry := rfl
@[simp] theorem State.retire_port : s.retire.port = s.port := rfl
@[simp] theorem State.retire_ctl : s.retire.ctl = { s.ctl with fsm := .idle } := rfl
@[simp] theorem State.retire_link : s.retire.link = s.link := rfl
@[simp] theorem State.retire_host : s.retire.host = s.host := rfl

@[simp] theorem State.searchFail_search : s.searchFail.search = s.search.reset := rfl
@[simp] theorem State.searchFail_walk : s.searchFail.walk = s.walk := rfl
@[simp] theorem State.searchFail_registry : s.searchFail.registry = s.registry := rfl
@[simp] theorem State.searchFail_port : s.searchFail.port = s.port := rfl
@[simp] theorem State.searchFail_ctl : s.searchFail.ctl = s.ctl := rfl
@[simp] theorem State.searchFail_link : s.searchFail.link = s.link := rfl
@[simp] theorem State.searchFail_host : s.searchFail.host = s.host := rfl

@[simp] theorem State.setResByte_search (v : Byte) : (s.setResByte v).search = s.search := rfl
@[simp] theorem State.setResByte_walk (v : Byte) : (s.setResByte v).walk = s.walk := rfl
@[simp] theorem State.setResByte_registry (v : Byte) : (s.setResByte v).registry = s.registry := rfl
@[simp] theorem State.setResByte_port (v : Byte) : (s.setResByte v).port = { s.port with resByte := v } := rfl
@[simp] theorem State.setResByte_ctl (v : Byte) : (s.setResByte v).ctl = s.ctl := rfl
@[simp] theorem State.setResByte_link (v : Byte) : (s.setResByte v).link = s.link := rfl
@[simp] theorem State.setResByte_host (v : Byte) : (s.setResByte v).host = s.host := rfl

@[simp] theorem State.setResId_search (v : RomId) : (s.setResId v).search = s.search := rfl
@[simp] theorem State.setResId_walk (v : RomId) : (s.setResId v).walk = s.walk := rfl
@[simp] theorem State.setResId_registry (v : RomId) : (s.setResId v).registry = s.registry := rfl
@[simp] theorem State.setResId_port (v : RomId) : (s.setResId v).port = { s.port with resId := v } := rfl
@[simp] theorem State.setResId_ctl (v : RomId) : (s.setResId v).ctl = s.ctl := rfl
@[simp] theorem State.setResId_link (v : RomId) : (s.setResId v).link = s.link := rfl
@[simp] theorem State.setResId_host (v : RomId) : (s.setResId v).host = s.host := rfl

@[simp] theorem State.setResCount_search (v : BitVec 5) : (s.setResCount v).search = s.search := rfl
@[simp] theorem State.setResCount_walk (v : BitVec 5) : (s.setResCount v).walk = s.walk := rfl
@[simp] theorem State.setResCount_registry (v : BitVec 5) : (s.setResCount v).registry = s.registry := rfl
@[simp] theorem State.setResCount_port (v : BitVec 5) : (s.setResCount v).port = { s.port with resCount := v } := rfl
@[simp] theorem State.setResCount_ctl (v : BitVec 5) : (s.setResCount v).ctl = s.ctl := rfl
@[simp] theorem State.setResCount_link (v : BitVec 5) : (s.setResCount v).link = s.link := rfl
@[simp] theorem State.setResCount_host (v : BitVec 5) : (s.setResCount v).host = s.host := rfl

@[simp] theorem State.issue_search (f : Frame) : (s.issue f).search = s.search := rfl
@[simp] theorem State.issue_walk (f : Frame) : (s.issue f).walk = s.walk := rfl
@[simp] theorem State.issue_registry (f : Frame) : (s.issue f).registry = s.registry := rfl
@[simp] theorem State.issue_port (f : Frame) : (s.issue f).port = s.port := rfl
@[simp] theorem State.issue_ctl (f : Frame) : (s.issue f).ctl = { s.ctl with fsm := s.ctl.fsm.issued } := rfl
@[simp] theorem State.issue_link (f : Frame) : (s.issue f).link = s.link.write f := rfl
@[simp] theorem State.issue_host (f : Frame) : (s.issue f).host = s.host := rfl

@[simp] theorem State.chooseDirection_search : s.chooseDirection.search = s.search := rfl
@[simp] theorem State.chooseDirection_walk : s.chooseDirection.walk = { s.walk with d := preferred s.search s.walk } := rfl
@[simp] theorem State.chooseDirection_registry : s.chooseDirection.registry = s.registry := rfl
@[simp] theorem State.chooseDirection_port : s.chooseDirection.port = s.port := rfl
@[simp] theorem State.chooseDirection_ctl : s.chooseDirection.ctl = s.ctl := rfl
@[simp] theorem State.chooseDirection_link : s.chooseDirection.link = s.link := rfl
@[simp] theorem State.chooseDirection_host : s.chooseDirection.host = s.host := rfl

@[simp] theorem State.storeBit_search : s.storeBit.search = { s.search with rom := romStore s.search.rom s.walk.byteIdx.toNat s.walk.mask (dir s.link.snap) } := rfl
@[simp] theorem State.storeBit_walk : s.storeBit.walk = s.walk := rfl
@[simp] theorem State.storeBit_registry : s.storeBit.registry = s.registry := rfl
@[simp] theorem State.storeBit_port : s.storeBit.port = s.port := rfl
@[simp] theorem State.storeBit_ctl : s.storeBit.ctl = s.ctl := rfl
@[simp] theorem State.storeBit_link : s.storeBit.link = s.link := rfl
@[simp] theorem State.storeBit_host : s.storeBit.host = s.host := rfl

@[simp] theorem State.endWalk_search : s.endWalk.search = { s.search with
      lastDiscrepancy := s.walk.lastZero
      lastDeviceFlag := s.walk.lastZero == 0 || s.search.lastDeviceFlag } := rfl
@[simp] theorem State.endWalk_walk : s.endWalk.walk = s.walk := rfl
@[simp] theorem State.endWalk_registry : s.endWalk.registry = s.registry := rfl
@[simp] theorem State.endWalk_port : s.endWalk.port = s.port := rfl
@[simp] theorem State.endWalk_ctl : s.endWalk.ctl = s.ctl := rfl
@[simp] theorem State.endWalk_link : s.endWalk.link = s.link := rfl
@[simp] theorem State.endWalk_host : s.endWalk.host = s.host := rfl

@[simp] theorem State.register_search : s.register.search = s.search := rfl
@[simp] theorem State.register_walk : s.register.walk = s.walk := rfl
@[simp] theorem State.register_registry : s.register.registry = s.registry.append (romToId s.search.rom) := rfl
@[simp] theorem State.register_port : s.register.port = s.port := rfl
@[simp] theorem State.register_ctl : s.register.ctl = s.ctl := rfl
@[simp] theorem State.register_link : s.register.link = s.link := rfl
@[simp] theorem State.register_host : s.register.host = s.host := rfl

end Sys2Proof.Machine
end

