-- ==== Sys2Proof/Laws/Ops.lean ====
section
/-! SUPPORT. What each shared operation can do, said once: the link primitives, the sub-machines, the registry and the
requests. -/

namespace Sys2Proof.Machine

variable (l l' : Link) (s t : State)

/-! ### The environment primitives -/

@[simp] theorem Link.write_trace (f : Frame) : (l.write f).trace = .linkWrite Config.bridgeAddr f :: l.trace := rfl
@[simp] theorem Link.write_env (f : Frame) : (l.write f).env = l.env.receive f := rfl
@[simp] theorem Link.write_rd (f : Frame) : (l.write f).rd = l.rd := rfl
@[simp] theorem Link.write_snap (f : Frame) : (l.write f).snap = l.snap := rfl
@[simp] theorem Link.write_t0 (f : Frame) : (l.write f).t0 = l.t0 := rfl

@[simp] theorem Link.read_trace (p : Byte) :
    (l.read p).trace = .linkRead Config.bridgeAddr (l.env.answer l.trace) :: l.trace := rfl
@[simp] theorem Link.read_env (p : Byte) : (l.read p).env = l.env.afterRead := rfl
@[simp] theorem Link.read_rd (p : Byte) : (l.read p).rd = l.env.answer l.trace := rfl
@[simp] theorem Link.read_t0 (p : Byte) : (l.read p).t0 = l.t0 := rfl
@[simp] theorem Link.read_snap (p : Byte) :
    (l.read p).snap = if p = statusPtr then l.env.answer l.trace else l.snap := rfl

@[simp] theorem Link.tick_trace : l.tick.trace = .tick l.now :: l.trace := rfl
@[simp] theorem Link.tick_env : l.tick.env = l.env.afterTick l.now := rfl
@[simp] theorem Link.tick_rd : l.tick.rd = l.rd := rfl
@[simp] theorem Link.tick_snap : l.tick.snap = l.snap := rfl
@[simp] theorem Link.tick_t0 : l.tick.t0 = l.t0 := rfl

@[simp] theorem Link.startPoll_trace : l.startPoll.trace = .tick l.now :: l.trace := rfl
@[simp] theorem Link.startPoll_env : l.startPoll.env = l.env.afterTick l.now := rfl
@[simp] theorem Link.startPoll_rd : l.startPoll.rd = l.rd := rfl
@[simp] theorem Link.startPoll_snap : l.startPoll.snap = l.snap := rfl
@[simp] theorem Link.startPoll_t0 : l.startPoll.t0 = l.now := rfl

@[simp] theorem Flow.within_goto {π ρ π' ρ' : Type} (c : π → π') (r : ρ → Flow π' ρ') (p : π) :
    (Flow.goto p : Flow π ρ).within c r = .goto (c p) := rfl
@[simp] theorem Flow.within_done {π ρ π' ρ' : Type} (c : π → π') (r : ρ → Flow π' ρ') (x : ρ) :
    (Flow.done x : Flow π ρ).within c r = r x := rfl

/-! ### The sub-machines -/

/-- Everything a point of `ReadRegister` can do (R150). -/
theorem readPoint_cases {ptr : Byte} {p : ReadPt} {l l' : Link} {f : Flow ReadPt Unit} (h : readPoint ptr p l = (l', f)) :
    (p = .rrSel ∧ l' = l.write (selectFrame ptr) ∧ f = .goto .rrRd) ∨
    (p = .rrRd ∧ l' = l.read ptr ∧ f = .done ()) := by
  cases p <;> cases h <;> simp

/-- Everything a point of `Poll` can do (R152). -/
theorem pollPoint_cases {c : Cond} {T : Nat} {p : PollPt} {l l' : Link} {f : Flow PollPt Wait}
    (h : pollPoint c T p l = (l', f)) :
    (p = .pT0 ∧ l' = l.startPoll ∧ f = .goto (.pSample .rrSel)) ∨
    (p = .pSample .rrSel ∧ l' = l.write (selectFrame statusPtr) ∧ f = .goto (.pSample .rrRd)) ∨
    (p = .pSample .rrRd ∧ l' = l.read statusPtr ∧ f = .goto .pTest) ∨
    (p = .pTest ∧ l' = l ∧ c.holds l.snap = true ∧ f = .goto .pOk) ∨
    (p = .pTest ∧ l' = l ∧ c.holds l.snap = false ∧ f = .goto .pTime) ∨
    (p = .pTime ∧ l' = l.tick ∧ T ≤ l.now - l.t0 ∧ f = .goto .pTimeout) ∨
    (p = .pTime ∧ l' = l.tick ∧ l.now - l.t0 < T ∧ f = .goto (.pSample .rrSel)) ∨
    (p = .pOk ∧ l' = l ∧ f = .done .ok) ∨
    (p = .pTimeout ∧ l' = l ∧ f = .done .timeout) := by
  cases p with
  | pT0 => cases h; simp
  | pSample r => cases r <;> cases h <;> simp
  | pTest => cases h; cases hc : c.holds l.snap <;> simp
  | pTime =>
    cases h
    by_cases hT : T ≤ l.now - l.t0
    · simp [expired, hT]
    · simp [expired, hT]; omega
  | pOk => cases h; simp
  | pTimeout => cases h; simp

/-- Everything a point of `Cmd` can do (R154). -/
theorem cmdPoint_cases {cmd : Frame} {p : CmdPt} {l l' : Link} {f : Flow CmdPt Wait} (h : cmdPoint cmd p l = (l', f)) :
    (∃ q q', p = .cPre q ∧ busyPoint q l = (l', .goto q') ∧ f = .goto (.cPre q')) ∨
    (∃ q, p = .cPre q ∧ busyPoint q l = (l', .done .ok) ∧ f = .goto .cIssue) ∨
    (∃ q, p = .cPre q ∧ busyPoint q l = (l', .done .timeout) ∧ f = .goto .cFail) ∨
    (p = .cIssue ∧ l' = l.write cmd ∧ f = .goto (.cPost .pT0)) ∨
    (∃ q q', p = .cPost q ∧ busyPoint q l = (l', .goto q') ∧ f = .goto (.cPost q')) ∨
    (∃ q, p = .cPost q ∧ busyPoint q l = (l', .done .ok) ∧ f = .goto .cOk) ∨
    (∃ q, p = .cPost q ∧ busyPoint q l = (l', .done .timeout) ∧ f = .goto .cFail) ∨
    (p = .cOk ∧ l' = l ∧ f = .done .ok) ∨
    (p = .cFail ∧ l' = l ∧ f = .done .timeout) := by
  cases p with
  | cPre q =>
    rcases hb : busyPoint q l with ⟨m, g⟩
    rcases g with q' | (_ | _) <;> simp [cmdPoint, hb] at h <;> obtain ⟨rfl, rfl⟩ := h <;> simp [hb]
  | cPost q =>
    rcases hb : busyPoint q l with ⟨m, g⟩
    rcases g with q' | (_ | _) <;> simp [cmdPoint, hb] at h <;> obtain ⟨rfl, rfl⟩ := h <;> simp [hb]
  | cIssue => cases h; simp
  | cOk => cases h; simp
  | cFail => cases h; simp

/-- Everything a point of `reset()` can do (R140). -/
theorem resetPoint_cases {p : ResetPt} {l l' : Link} {f : Flow ResetPt Bool} (h : resetPoint p l = (l', f)) :
    (p = .brIssue ∧ l' = l.write busResetFrame ∧ f = .goto (.brPpd .pT0)) ∨
    (∃ q q', p = .brPpd q ∧ pollPoint .presence Config.tReset q l = (l', .goto q') ∧ f = .goto (.brPpd q')) ∨
    (∃ q, p = .brPpd q ∧ pollPoint .presence Config.tReset q l = (l', .done .ok) ∧ f = .goto (.brBusy .pT0)) ∨
    (∃ q, p = .brPpd q ∧ pollPoint .presence Config.tReset q l = (l', .done .timeout) ∧ f = .goto .brFalse) ∨
    (∃ q q', p = .brBusy q ∧ busyPoint q l = (l', .goto q') ∧ f = .goto (.brBusy q')) ∨
    (∃ q, p = .brBusy q ∧ busyPoint q l = (l', .done .ok) ∧ f = .goto .brTrue) ∨
    (∃ q, p = .brBusy q ∧ busyPoint q l = (l', .done .timeout) ∧ f = .goto .brFalse) ∨
    (p = .brTrue ∧ l' = l ∧ f = .done true) ∨
    (p = .brFalse ∧ l' = l ∧ f = .done false) := by
  cases p with
  | brPpd q =>
    rcases hb : pollPoint .presence Config.tReset q l with ⟨m, g⟩
    rcases g with q' | (_ | _) <;> simp [resetPoint, hb] at h <;> obtain ⟨rfl, rfl⟩ := h <;> simp [hb]
  | brBusy q =>
    rcases hb : busyPoint q l with ⟨m, g⟩
    rcases g with q' | (_ | _) <;> simp [resetPoint, hb] at h <;> obtain ⟨rfl, rfl⟩ := h <;> simp [hb]
  | brIssue => cases h; simp
  | brTrue => cases h; simp
  | brFalse => cases h; simp

/-- What no point of the search step touches: the host interface registers, the operands, the host's writes. -/
theorem searchPoint_frame (p : SearchPt) :
    (searchPoint p s).1.port = s.port ∧ (searchPoint p s).1.host = s.host ∧ (searchPoint p s).1.ctl.fsm = s.ctl.fsm ∧
      (searchPoint p s).1.ctl.arg = s.ctl.arg ∧ (searchPoint p s).1.ctl.argId = s.ctl.argId := by
  cases p with
  | sReset q =>
    rcases hb : resetPoint q s.link with ⟨m, g⟩
    rcases g with q' | (_ | _) <;> simp [searchPoint, hb]
  | sFresh => simp only [searchPoint, State.beginStep]; split <;> simp
  | sZero => simp only [searchPoint, State.trackZero]; split <;> simp
  | sLdf | sCmd _ | sInit | sDir | sTrip _ | sDecode | sAbsent | sStore | sAdv | sFin | sAllzero | sReg | sFound
    | sFail => simp [searchPoint]

/-! ### Requests, steps, the registry -/

/-- A request is accepted in IDLE and refused otherwise (R76). -/
theorem request_cases (w : CmdWord) :
    (s.ctl.fsm = .idle ∧ s.request w = .next (s.accept w)) ∨
    (s.ctl.fsm ≠ .idle ∧ s.request w = .refused .requestWhileRunning) := by
  by_cases h : s.ctl.fsm = .idle
  · exact .inl ⟨h, by simp [State.request, State.run, h]⟩
  · exact .inr ⟨h, by simp [State.request, State.run, h]⟩

/-- Everything a step that answers a next state can do. -/
theorem step_cases {s t : State} (h : step s = .next t) :
    (s.fetched = none ∧ t = s.rest) ∨ ∃ i, s.fetched = some (.ok i) ∧ exec i s = .next t := by
  unfold step at h
  split at h
  · next hf => exact .inl ⟨hf, by cases h; rfl⟩
  · next i hf => exact .inr ⟨i, hf, h⟩
  · cases h

theorem Registry.clear_slot (r : Registry) (i : Nat) : r.clear.slot i = 0 := by
  simp only [Registry.slot, Registry.clear]
  by_cases h : i < 16 <;> simp [h]

end Sys2Proof.Machine
end

