-- ==== Sys2Proof/Laws/PerInstr.lean ====
section
/-! SUPPORT. Per-instruction laws: every instruction's encoding fits its row of spec/opcode_table.json. -/

namespace Sys2Proof.Laws

/-- A row of spec/opcode_table.json: width in bits, mask and match as numbers. -/
structure Row where
  width : Nat
  mask  : Nat
  value : Nat
  deriving DecidableEq, Repr

/-- The table's row of each constructor. -/
def rowOf : Instr → Row
  | .owReset _ => ⟨12, 0xF00, 0x100⟩ -- OW_RESET
  | .busyWait _ => ⟨12, 0xF00, 0x200⟩ -- BUSY_WAIT
  | .readReg _ => ⟨12, 0xF00, 0x300⟩ -- READ_REG
  | .writeByte _ => ⟨12, 0xF00, 0x400⟩ -- WRITE_BYTE
  | .readByte _ => ⟨12, 0xF00, 0x500⟩ -- READ_BYTE
  | .triplet _ => ⟨12, 0xF00, 0x600⟩ -- TRIPLET
  | .devReset _ => ⟨12, 0xF00, 0x700⟩ -- DEV_RESET
  | .cfgWrite _ => ⟨12, 0xF00, 0x800⟩ -- CFG_WRITE
  | .searchFirst _ => ⟨12, 0xF00, 0x900⟩ -- SEARCH_FIRST
  | .searchNext _ => ⟨12, 0xF00, 0xA00⟩ -- SEARCH_NEXT
  | .enumerate _ => ⟨12, 0xF00, 0xB00⟩ -- ENUMERATE
  | .regLookup _ => ⟨12, 0xF00, 0xC00⟩ -- REG_LOOKUP
  | .regGetall _ => ⟨12, 0xF00, 0xD00⟩ -- REG_GETALL
  | .reserved0 _ => ⟨12, 0xF00, 0x000⟩ -- RESERVED_0
  | .reservedE _ => ⟨12, 0xF00, 0xE00⟩ -- RESERVED_E
  | .reservedF _ => ⟨12, 0xF00, 0xF00⟩ -- RESERVED_F
  | .brDeviceReset => ⟨8, 0xFF, 0xF0⟩ -- BR_DEVICE_RESET
  | .brSetReadPointer _ => ⟨16, 0xFF00, 0xE100⟩ -- BR_SET_READ_POINTER
  | .brConfigWrite _ => ⟨16, 0xFF00, 0xD200⟩ -- BR_CONFIG_WRITE
  | .brChannelSelect _ => ⟨8, 0xFF, 0xC3⟩ -- BR_CHANNEL_SELECT
  | .brBusReset => ⟨8, 0xFF, 0xB4⟩ -- BR_BUS_RESET
  | .brWriteByte _ => ⟨16, 0xFF00, 0xA500⟩ -- BR_WRITE_BYTE
  | .brReadByte => ⟨8, 0xFF, 0x96⟩ -- BR_READ_BYTE
  | .brTriplet _ => ⟨16, 0xFF00, 0x7800⟩ -- BR_TRIPLET
  | .ptrStatus => ⟨8, 0xFF, 0xF0⟩ -- PTR_STATUS
  | .ptrData => ⟨8, 0xFF, 0xE1⟩ -- PTR_DATA
  | .ptrChannel => ⟨8, 0xFF, 0xD2⟩ -- PTR_CHANNEL
  | .ptrConfig => ⟨8, 0xFF, 0xC3⟩ -- PTR_CONFIG
  | .busSearch => ⟨8, 0xFF, 0xF0⟩ -- BUS_SEARCH
  | .busMatchRom => ⟨8, 0xFF, 0x55⟩ -- BUS_MATCH_ROM

/-- The width of a word as the table counts it. -/
def codeWidth : Code → Nat
  | .hostWord _ => 12
  | .bridge ⟨_, none⟩ => 8
  | .bridge ⟨_, some _⟩ => 16
  | .pointer _ => 8
  | .bus _ => 8

/-- A word as the table numbers it: the first byte of a two-byte frame is bits 15..8. -/
def codeNumber : Code → Nat
  | .hostWord w => w.toNat
  | .bridge ⟨c, none⟩ => c.toNat
  | .bridge ⟨c, some p⟩ => c.toNat * 256 + p.toNat
  | .pointer b => b.toNat
  | .bus b => b.toNat

/-- The part of a word the table numbers: all of it, but for channel-select its code byte alone (log entry 9). -/
def listedPart : Code → Code
  | .bridge f => .bridge (if f.code = 0xC3 then { f with param := none } else f)
  | .hostWord w => .hostWord w
  | .pointer b => .pointer b
  | .bus b => .bus b

/-- The instruction's word, as far as the table numbers it, has its row's width and its row's fixed bits. -/
def TableFit.Statement (i : Instr) : Prop :=
  codeWidth (listedPart (encode i)) = (rowOf i).width ∧
    codeNumber (listedPart (encode i)) &&& (rowOf i).mask = (rowOf i).value

/-- The fixed bits of a host command word are its operation code. -/
theorem hostWord_fixed (k : BitVec 4) (a : Byte) : (hostWordOf k a).toNat &&& 0xF00 = k.toNat * 256 := by
  have h := BitVec.toNat_append k a
  have hm : (0xF00 : Nat) = (0xF <<< 8) := by decide
  rw [hostWordOf, h, hm, Nat.and_or_distrib_right, ← Nat.shiftLeft_and_distrib]
  have ha : a.toNat &&& (0xF <<< 8) = 0 := by
    apply Nat.eq_of_testBit_eq
    intro i
    rw [Nat.testBit_and, Nat.testBit_shiftLeft, Nat.zero_testBit]
    by_cases hi : 8 ≤ i
    · rw [Nat.testBit_lt_two_pow (lt_of_lt_of_le a.isLt (Nat.pow_le_pow_right (by decide) hi))]
      rfl
    · simp [hi]
  have hk : k.toNat &&& 0xF = k.toNat := by
    rw [show (0xF : Nat) = 2 ^ 4 - 1 by decide, Nat.and_two_pow_sub_one_eq_mod, Nat.mod_eq_of_lt k.isLt]
  rw [ha, hk, Nat.or_zero, Nat.shiftLeft_eq]

/-- The fixed bits of a two-byte frame are its code. -/
theorem frame_fixed (c p : Byte) : (c.toNat * 256 + p.toNat) &&& 0xFF00 = c.toNat * 256 := by
  have e : c.toNat * 256 + p.toNat = (c ++ p).toNat := by
    rw [BitVec.toNat_append, ← Nat.shiftLeft_add_eq_or_of_lt p.isLt, Nat.shiftLeft_eq]
  have hm : (0xFF00 : Nat) = (0xFF <<< 8) := by decide
  rw [e, BitVec.toNat_append, hm, Nat.and_or_distrib_right, ← Nat.shiftLeft_and_distrib]
  have hp : p.toNat &&& (0xFF <<< 8) = 0 := by
    apply Nat.eq_of_testBit_eq
    intro i
    rw [Nat.testBit_and, Nat.testBit_shiftLeft, Nat.zero_testBit]
    by_cases hi : 8 ≤ i
    · rw [Nat.testBit_lt_two_pow (lt_of_lt_of_le p.isLt (Nat.pow_le_pow_right (by decide) hi))]
      rfl
    · simp [hi]
  have hc : c.toNat &&& 0xFF = c.toNat := by
    rw [show (0xFF : Nat) = 2 ^ 8 - 1 by decide, Nat.and_two_pow_sub_one_eq_mod, Nat.mod_eq_of_lt c.isLt]
  rw [hp, hc, Nat.or_zero, Nat.shiftLeft_eq]

theorem TableFit.owReset (arg : Byte) : TableFit.Statement (.owReset arg) := ⟨rfl, hostWord_fixed _ arg⟩
theorem TableFit.busyWait (arg : Byte) : TableFit.Statement (.busyWait arg) := ⟨rfl, hostWord_fixed _ arg⟩
theorem TableFit.readReg (arg : Byte) : TableFit.Statement (.readReg arg) := ⟨rfl, hostWord_fixed _ arg⟩
theorem TableFit.writeByte (arg : Byte) : TableFit.Statement (.writeByte arg) := ⟨rfl, hostWord_fixed _ arg⟩
theorem TableFit.readByte (arg : Byte) : TableFit.Statement (.readByte arg) := ⟨rfl, hostWord_fixed _ arg⟩
theorem TableFit.triplet (arg : Byte) : TableFit.Statement (.triplet arg) := ⟨rfl, hostWord_fixed _ arg⟩
theorem TableFit.devReset (arg : Byte) : TableFit.Statement (.devReset arg) := ⟨rfl, hostWord_fixed _ arg⟩
theorem TableFit.cfgWrite (arg : Byte) : TableFit.Statement (.cfgWrite arg) := ⟨rfl, hostWord_fixed _ arg⟩
theorem TableFit.searchFirst (arg : Byte) : TableFit.Statement (.searchFirst arg) := ⟨rfl, hostWord_fixed _ arg⟩
theorem TableFit.searchNext (arg : Byte) : TableFit.Statement (.searchNext arg) := ⟨rfl, hostWord_fixed _ arg⟩
theorem TableFit.enumerate (arg : Byte) : TableFit.Statement (.enumerate arg) := ⟨rfl, hostWord_fixed _ arg⟩
theorem TableFit.regLookup (arg : Byte) : TableFit.Statement (.regLookup arg) := ⟨rfl, hostWord_fixed _ arg⟩
theorem TableFit.regGetall (arg : Byte) : TableFit.Statement (.regGetall arg) := ⟨rfl, hostWord_fixed _ arg⟩
theorem TableFit.reserved0 (arg : Byte) : TableFit.Statement (.reserved0 arg) := ⟨rfl, hostWord_fixed _ arg⟩
theorem TableFit.reservedE (arg : Byte) : TableFit.Statement (.reservedE arg) := ⟨rfl, hostWord_fixed _ arg⟩
theorem TableFit.reservedF (arg : Byte) : TableFit.Statement (.reservedF arg) := ⟨rfl, hostWord_fixed _ arg⟩
theorem TableFit.brDeviceReset : TableFit.Statement .brDeviceReset := ⟨rfl, rfl⟩
theorem TableFit.brSetReadPointer (param : Byte) : TableFit.Statement (.brSetReadPointer param) := ⟨rfl, frame_fixed _ param⟩
theorem TableFit.brConfigWrite (param : Byte) : TableFit.Statement (.brConfigWrite param) := ⟨rfl, frame_fixed _ param⟩
theorem TableFit.brChannelSelect (param : Byte) : TableFit.Statement (.brChannelSelect param) := by
  constructor <;> simp [encode, listedPart, codeWidth, codeNumber, rowOf]
theorem TableFit.brBusReset : TableFit.Statement .brBusReset := ⟨rfl, rfl⟩
theorem TableFit.brWriteByte (param : Byte) : TableFit.Statement (.brWriteByte param) := ⟨rfl, frame_fixed _ param⟩
theorem TableFit.brReadByte : TableFit.Statement .brReadByte := ⟨rfl, rfl⟩
theorem TableFit.brTriplet (param : Byte) : TableFit.Statement (.brTriplet param) := ⟨rfl, frame_fixed _ param⟩
theorem TableFit.ptrStatus : TableFit.Statement .ptrStatus := ⟨rfl, rfl⟩
theorem TableFit.ptrData : TableFit.Statement .ptrData := ⟨rfl, rfl⟩
theorem TableFit.ptrChannel : TableFit.Statement .ptrChannel := ⟨rfl, rfl⟩
theorem TableFit.ptrConfig : TableFit.Statement .ptrConfig := ⟨rfl, rfl⟩
theorem TableFit.busSearch : TableFit.Statement .busSearch := ⟨rfl, rfl⟩
theorem TableFit.busMatchRom : TableFit.Statement .busMatchRom := ⟨rfl, rfl⟩

end Sys2Proof.Laws
end

