-- ==== Sys2Proof/Tests/Slice0.lean ====
section
/-! SUPPORT. Tests: ill-formed terms, words written out from the encodings of spec/30_encoding.md, single steps with the
results of spec/95_test_vectors.md, and one witness for the hypotheses of every obligation. -/

namespace Sys2Proof.Tests

open Sys2Proof Sys2Proof.Machine

/-! ### Ill-formed terms (R106, R107, R112) -/

theorem test_wf_config_ok : (Instr.brConfigWrite 0xE1).wellFormed = true := by decide
theorem test_wf_config_complement : (Instr.brConfigWrite 0x01).wellFormed = false := by decide
theorem test_wf_config_reserved_bit : (Instr.brConfigWrite 0xD2).wellFormed = false := by decide
theorem test_wf_direction_ok : (Instr.brTriplet 0x80).wellFormed = true := by decide
theorem test_wf_direction_low_bit : (Instr.brTriplet 0x81).wellFormed = false := by decide

/-! ### Host command words: OP in bits 11 to 8, ARG8 in bits 7 to 0 (R109, R110, R114, vector V-D5) -/

theorem test_decode_owReset : decode (.hostWord 0b0001_00000000) = .ok (.owReset 0) := by decide
theorem test_decode_busyWait : decode (.hostWord 0b0010_00001010) = .ok (.busyWait 10) := by decide
theorem test_decode_readReg : decode (.hostWord 0b0011_11000011) = .ok (.readReg 0xC3) := by decide
theorem test_decode_writeByte : decode (.hostWord 0b0100_11110000) = .ok (.writeByte 0xF0) := by decide
theorem test_decode_readByte : decode (.hostWord 0b0101_00000000) = .ok (.readByte 0) := by decide
theorem test_decode_triplet : decode (.hostWord 0b0110_00000001) = .ok (.triplet 1) := by decide
theorem test_decode_devReset : decode (.hostWord 0b0111_00000000) = .ok (.devReset 0) := by decide
theorem test_decode_cfgWrite : decode (.hostWord 0b1000_00001101) = .ok (.cfgWrite 0x0D) := by decide
theorem test_decode_searchFirst : decode (.hostWord 0b1001_00000000) = .ok (.searchFirst 0) := by decide
theorem test_decode_searchNext : decode (.hostWord 0b1010_00000000) = .ok (.searchNext 0) := by decide
theorem test_decode_enumerate : decode (.hostWord 0b1011_00000000) = .ok (.enumerate 0) := by decide
theorem test_decode_regLookup : decode (.hostWord 0b1100_00000000) = .ok (.regLookup 0) := by decide
theorem test_decode_regGetall : decode (.hostWord 0b1101_00010000) = .ok (.regGetall 16) := by decide
theorem test_decode_reserved0 : decode (.hostWord 0b0000_00000000) = .ok (.reserved0 0) := by decide
theorem test_decode_reservedE : decode (.hostWord 0b1110_01010101) = .ok (.reservedE 0x55) := by decide
theorem test_decode_reservedF : decode (.hostWord 0b1111_11111111) = .ok (.reservedF 0xFF) := by decide

/-! ### Bridge commands (R102), pointer codes (R103), bus commands (R104) -/

theorem test_decode_brDeviceReset : decode (.bridge ⟨0b11110000, none⟩) = .ok .brDeviceReset := by decide
theorem test_decode_brSetReadPointer :
    decode (.bridge ⟨0b11100001, some 0b11110000⟩) = .ok (.brSetReadPointer 0xF0) := by decide
theorem test_decode_brConfigWrite :
    decode (.bridge ⟨0b11010010, some 0b11100001⟩) = .ok (.brConfigWrite 0xE1) := by decide
theorem test_decode_brChannelSelect :
    decode (.bridge ⟨0b11000011, some 0b00000111⟩) = .ok (.brChannelSelect 0x07) := by decide
theorem test_decode_brBusReset : decode (.bridge ⟨0b10110100, none⟩) = .ok .brBusReset := by decide
theorem test_decode_brWriteByte :
    decode (.bridge ⟨0b10100101, some 0b11110000⟩) = .ok (.brWriteByte 0xF0) := by decide
theorem test_decode_brReadByte : decode (.bridge ⟨0b10010110, none⟩) = .ok .brReadByte := by decide
theorem test_decode_brTriplet :
    decode (.bridge ⟨0b01111000, some 0b10000000⟩) = .ok (.brTriplet 0x80) := by decide
theorem test_decode_ptrStatus : decode (.pointer 0b11110000) = .ok .ptrStatus := by decide
theorem test_decode_ptrData : decode (.pointer 0b11100001) = .ok .ptrData := by decide
theorem test_decode_ptrChannel : decode (.pointer 0b11010010) = .ok .ptrChannel := by decide
theorem test_decode_ptrConfig : decode (.pointer 0b11000011) = .ok .ptrConfig := by decide
theorem test_decode_busSearch : decode (.bus 0b11110000) = .ok .busSearch := by decide
theorem test_decode_busMatchRom : decode (.bus 0b01010101) = .ok .busMatchRom := by decide

/-! ### Rejections by name (R61, R104, R114, R115) -/

theorem test_reject_unknown_command : decode (.bridge ⟨0x55, none⟩) = .error .unknownCommand := by decide
theorem test_reject_missing_parameter : decode (.bridge ⟨0x78, none⟩) = .error .missingByte := by decide
theorem test_reject_trailing_byte : decode (.bridge ⟨0xB4, some 0⟩) = .error .trailingBytes := by decide
theorem test_reject_unknown_pointer : decode (.pointer 0xB4) = .error .unknownPointer := by decide
theorem test_reject_unknown_bus_command : decode (.bus 0xCC) = .error .unknownBusCommand := by decide

/-! ### Table words: the same byte by place (R103, R118) -/

theorem test_table_twelve_bits : decodeTableWord 12 0x80D = some (.cfgWrite 0x0D) := by decide
theorem test_table_two_bytes : decodeTableWord 16 0x7880 = some (.brTriplet 0x80) := by decide
theorem test_table_one_byte : decodeTableWord 8 0xE1 = some .ptrData := by decide
theorem test_table_bus_byte : decodeTableWord 8 0x55 = some .busMatchRom := by decide

/-! ### Decoding and conversion (vectors V-D1 to V-D4) -/

theorem test_status_walk_sample : (busy 0xA2, ppd 0xA2, sbr 0xA2, tsb 0xA2, dir 0xA2) = (false, true, true, false, true) := by
  decide
theorem test_status_ignored_bits : (busy 0x1C, ppd 0x1C, sbr 0x1C, tsb 0x1C, dir 0x1C) = (false, false, false, false, false) := by
  decide
theorem test_cfg_byte_ignored_bits : configByte (configFlags 0xF2) = 0xF0 := by decide
theorem test_cfg_byte_all_flags : configByte (configFlags 0x0D) = 0x2D := by decide
theorem test_position_ten : (byteIdxOf 10, maskOf 10) = (1, 0x02) := by decide
theorem test_position_last : (byteIdxOf 64, maskOf 64) = (7, 0x80) := by decide
theorem test_rom_to_id : romToId #v[0x7E, 0xAB, 0x34, 0x12, 0, 0, 0, 0x28] = 0x280000001234AB7E := by decide
theorem test_id_to_rom : idToRom 0x8000000000000028 = #v[0x28, 0, 0, 0, 0, 0, 0, 0x80] := by decide

/-! ### Small states -/

/-- The power-on state with control at a program point. -/
def at_ (f : Fsm) : State := State.reset.goto f

/-- The power-on state in DISPATCH with a command word. -/
def called (w : CmdWord) : State := State.reset.accept w

/-- The state with an environment that gives these answers, one tick per sample. -/
def answering (s : State) (answers : List Byte) : State :=
  { s with link := { s.link with env := .oracle ⟨answers, [1, 1, 1, 1], 0⟩ } }

/-- The state on the reference environment. -/
def onIdeal (s : State) (v : IdealVariant) (devices : List RomId) : State :=
  { s with link := { s.link with env := .ideal (Ideal.init devices v) } }

/-- The state with this snapshot and argument latch. -/
def seeing (s : State) (snap : Byte) (t0 : Nat := 0) : State := { s with link := { s.link with snap := snap, rd := snap, t0 := t0 } }

/-- The state with these walk temporaries. -/
def walking (s : State) (n lastZero : Pos) (byteIdx : BitVec 4) (mask : Byte) : State :=
  { s with walk := { n := n, lastZero := lastZero, byteIdx := byteIdx, mask := mask, d := false } }

/-- The next state of an outcome. -/
def next? : Host.Outcome State Fault Refusal → Option State
  | .next s => some s
  | .fault _ | .refused _ => none

/-- Control after one step. -/
def fsmAfter (s : State) : Option Fsm := (next? (step s)).map (·.ctl.fsm)

/-- Result code and byte after one step. -/
def resultAfter (s : State) : Option (ResCode × Byte) := (next? (step s)).map fun t => (t.port.resCode, t.port.resByte)

/-- Search State after one step, without the buffer. -/
def searchAfter (s : State) : Option (Pos × Pos × Bool) :=
  (next? (step s)).map fun t => (t.search.lastDiscrepancy, t.search.lastFamilyDiscrepancy, t.search.lastDeviceFlag)

/-! ### Single steps of the host operations -/

/-- The state with an argument latched. -/
def arg (s : State) (a : Byte) : State := { s with ctl := { s.ctl with arg := a } }

/-- The state with the tick source at `now` and standing still. -/
def clocked (s : State) (now : Nat) : State := { s with link := { s.link with env := .oracle ⟨[], [0], now⟩ } }

/-- The state with this Search State. -/
def searching (s : State) (rom : Rom) (ld lfd : Pos) (ldf : Bool) : State := { s with search := ⟨rom, ld, lfd, ldf⟩ }

/-- The registry of vector V-S4's end. -/
def fourSlots : Registry :=
  (((State.reset.registry.append 0x110).append 0x8000000000000028).append 0x128).append 0x2A8

/-- The state with that registry and this latched identifier. -/
def registered (s : State) (id : RomId) : State :=
  { s with registry := fourSlots, ctl := { s.ctl with argId := id }, port := { s.port with argId := id } }

-- R34, R140: the first program point of OW_RESET; V-O2: no presence is ABSENT
theorem test_owReset_enters : fsmAfter (called 0x100) = some (.owReset .brIssue) := by decide
theorem test_owReset_absent : resultAfter (at_ (.owReset .brFalse)) = some (.absent, 0) := by decide
-- V-B4: with a budget of 10, tick 9 is in time and tick 12 is not
theorem test_busyWait_in_time :
    fsmAfter (clocked (arg (at_ (.busyWait .pTime)) 10) 9) = some (.busyWait (.pSample .rrSel)) := by decide
theorem test_busyWait_expired :
    fsmAfter (clocked (arg (at_ (.busyWait .pTime)) 10) 12) = some (.busyWait .pTimeout) := by decide
-- V-C6, V-C7: the status register is read without a pre-wait, the configuration register with one
theorem test_readReg_status : fsmAfter (called 0x3F0) = some (.readReg .rrSel) := by decide
theorem test_readReg_config : fsmAfter (called 0x3C3) = some (.readRegWait .pT0) := by decide
-- V-C1: the command of WRITE_BYTE 0xCC; V-C2: TIMEOUT
theorem test_writeByte_command : (next? (step (called 0x4CC))).map (·.ctl.cmd) = some ⟨0xA5, some 0xCC⟩ := by decide
theorem test_writeByte_timeout : resultAfter (at_ (.writeByte .cFail)) = some (.timeout, 0) := by decide
-- V-C3: READ_BYTE answers the data register; R157: it is read after the command
theorem test_readByte_data : resultAfter (answering (at_ (.readByteData .rrRd)) [0xFF]) = some (.ok, 0xFF) := by decide
theorem test_readByte_after_command : fsmAfter (at_ (.readByte .cOk)) = some (.readByteData .rrSel) := by decide
-- V-D5: 0x6FE is TRIPLET 0; V-T5: both read bits 1 is OK all the same
theorem test_triplet_direction_bit : (next? (step (called 0x6FE))).map (·.ctl.cmd) = some ⟨0x78, some 0x00⟩ := by decide
theorem test_triplet_nobody : resultAfter (seeing (at_ (.triplet .cOk)) 0xE0) = some (.ok, 0xE0) := by decide
-- V-C4, V-C8
theorem test_devReset_ok : resultAfter (at_ (.devReset .cOk)) = some (.ok, 0) := by decide
theorem test_devReset_timeout : resultAfter (at_ (.devReset .cFail)) = some (.timeout, 0) := by decide
-- V-G6: the reserved bit reads 1; V-G7: the high nibble is not examined
theorem test_cfgWrite_mismatch : resultAfter (seeing (arg (at_ .cfgCompare) 0x01) 0xE3) = some (.mismatch, 0xE3) := by decide
theorem test_cfgWrite_high_nibble : resultAfter (seeing (arg (at_ .cfgCompare) 0x01) 0xF1) = some (.ok, 0xF1) := by decide
-- V-Y4: found in slot 3; V-Y5: identifier 0 is in no occupied slot
theorem test_regLookup_found :
    (next? (step (registered (at_ (.regLookup .gScan)) 0x2A8))).map (fun t => (t.port.resCode, t.port.resCount)) =
      some (.found, 3) := by decide
theorem test_regLookup_zero : fsmAfter (registered (at_ (.regLookup .gScan)) 0) = some (.regLookup .gDone) := by decide
-- V-Y1, V-Y2
theorem test_regGetall_all :
    (next? (step (registered (arg (at_ (.regGetall .gDone)) 16) 0))).map (·.port.resCount) = some 4 := by decide
theorem test_regGetall_capacity : fourSlots.sequence 2 = [0x110, 0x8000000000000028] := by decide
-- V-D5: reserved codes
theorem test_reserved0_illegal : resultAfter (called 0x000) = some (.illegal, 0) := by decide
theorem test_reservedE_illegal : resultAfter (called 0xE55) = some (.illegal, 0) := by decide
theorem test_reservedF_illegal : fsmAfter (called 0xFFF) = some .complete := by decide

-- R76: ARG_ID is latched at acceptance, a write of it in DISPATCH does not reach the operation
theorem test_argId_latched :
    (next? (step (hostWriteArgId 0x111 ((hostWriteArgId 0x2A8 State.reset).accept 0xC00)))).map (·.ctl.argId) =
      some 0x2A8 := by decide

/-! ### Single steps of the search (vectors of section 2.7) -/

-- R184: with the flag set the step fails at once; R183: the reporting call does not clear the registry
theorem test_searchNext_last_device :
    fsmAfter (searching (at_ (.searchNext .sLdf)) (idToRom 1) 0 0 true) = some (.searchNext .sFail) := by decide
theorem test_searchNext_keeps_registry :
    (next? (step (registered (searching (at_ (.searchNext .sFresh)) (idToRom 1) 0 0 true) 0))).map (·.registry.count) =
      some 4 := by decide
-- V-X3, second call: position 10 is LastDiscrepancy and prefers 1; position 9 replays bit 0 of 0x01
theorem test_searchNext_prefers_one :
    (next? (step (walking (searching (at_ (.searchNext .sDir)) (idToRom 0x280000001234017E) 10 0 false) 10 0 1 0x02))).map
      (·.ctl.cmd) = some ⟨0x78, some 0x80⟩ := by decide
theorem test_searchNext_replays :
    (next? (step (walking (searching (at_ (.searchNext .sDir)) (idToRom 0x280000001234017E) 10 0 false) 8 0 0 0x80))).map
      (·.ctl.cmd) = some ⟨0x78, some 0x00⟩ := by decide
-- V-X3, first call: the discrepancy at position 10 is recorded, LastFamilyDiscrepancy is not written
theorem test_searchFirst_zero_branch :
    (next? (step (seeing (walking (at_ (.searchFirst .sZero)) 10 0 1 0x02) 0x02))).map
      (fun t => (t.walk.lastZero, t.search.lastFamilyDiscrepancy)) = some (10, 0) := by decide
-- V-S4: position 8 is in the family byte
theorem test_searchFirst_family :
    searchAfter (seeing (walking (at_ (.searchFirst .sZero)) 8 4 0 0x80) 0x02) = some (0, 8, false) := by decide
-- V-S4, fourth call: last_zero 0 sets the flag and LastFamilyDiscrepancy keeps its 8
theorem test_enumerate_end_of_walk :
    searchAfter (walking (searching (at_ (.enumerate (.eNext .sFin))) (idToRom 0x2A8) 8 8 false) 65 0 8 0x01) =
      some (0, 8, true) := by decide
-- V-S5: the all-zero identifier fails; V-S6: both read bits 1 abort
theorem test_searchFirst_all_zero : fsmAfter (at_ (.searchFirst .sAllzero)) = some (.searchFirst .sFail) := by decide
theorem test_enumerate_absent : fsmAfter (seeing (at_ (.enumerate (.eNext .sAbsent))) 0x62) = some (.enumerate (.eNext .sFail)) := by
  decide
-- V-S8: reset() false fails the step; V-S11: a triplet whose pre-wait times out is not sent and fails the step
theorem test_searchFirst_reset_fails : fsmAfter (at_ (.searchFirst (.sReset .brFalse))) = some (.searchFirst .sFail) := by
  decide
theorem test_searchNext_triplet_timeout :
    fsmAfter (at_ (.searchNext (.sTrip (.cPre .pTimeout)))) = some (.searchNext (.sTrip .cFail)) := by decide
-- V-S7: a full registry drops the identifier
theorem test_append_full :
    (Registry.append ⟨Vector.replicate 16 7, 16⟩ 15) = ⟨Vector.replicate 16 7, 16⟩ := by decide

/-! ### Single steps of the layers below, seen in the reference environment (vectors V-T1 to V-T5) -/

/-- A status byte and the devices still active, after a triplet. -/
def tripletOn (active : List RomId) (pos : Nat) (status : Byte) (d : Bool) : Byte × List RomId :=
  let e := Ideal.triplet { Ideal.init [1, 2] .plain with active := active, pos := pos, status := status, mode := .search } d
  (e.status, e.active)

theorem test_ideal_triplet_discrepancy : tripletOn [1, 2] 1 0x02 false = (0x02, [2]) := by decide
theorem test_ideal_triplet_all_ones : tripletOn [2] 2 0x02 false = (0xA2, [2]) := by decide
theorem test_ideal_triplet_prefers_one : tripletOn [1, 2] 1 0x02 true = (0x82, [1]) := by decide
theorem test_ideal_triplet_all_zeros : tripletOn [1] 2 0x82 false = (0x42, [1]) := by decide
theorem test_ideal_triplet_nobody : tripletOn [] 1 0x00 true = (0xE0, []) := by decide

/-- What E_IDEAL answers next, after an instruction runs at the issue point of `WRITE_BYTE`. -/
def answerAfter (i : Instr) : Option Byte :=
  (next? (exec i (onIdeal (at_ (.writeByte .cIssue)) .plain [1, 2]))).map fun t => t.link.env.answer []

theorem test_brDeviceReset_status : answerAfter .brDeviceReset = some 0x10 := by decide
theorem test_brBusReset_presence : answerAfter .brBusReset = some 0x02 := by decide
theorem test_brConfigWrite_readback : answerAfter (.brConfigWrite 0xE1) = some 0x01 := by decide
theorem test_brReadByte_status : answerAfter .brReadByte = some 0x00 := by decide
theorem test_brSetReadPointer_unknown : answerAfter (.brSetReadPointer 0xB4) = some 0x00 := by decide
theorem test_brChannelSelect_status : answerAfter (.brChannelSelect 0x07) = some 0x00 := by decide
/-- R88: in E_LOW presence reads 1, after a device-reset too. -/
theorem test_low_presence :
    (next? (exec .brDeviceReset (onIdeal (at_ (.devReset .cIssue)) .low []))).map (fun t => t.link.env.answer []) =
      some 0x12 := by decide
theorem test_ptrConfig_config : answerAfter .ptrConfig = some 0x00 := by decide
theorem test_ptrChannel_zero : answerAfter .ptrChannel = some 0x00 := by decide
theorem test_busSearch_mode :
    (next? (exec .busSearch (onIdeal (at_ (.writeByte .cIssue)) .plain [1]))).map (fun t =>
      match t.link.env with
      | .ideal e => e.mode == .search
      | .oracle _ => false) = some true := by decide
theorem test_busMatchRom_mode :
    (next? (exec .busMatchRom (onIdeal (at_ (.writeByte .cIssue)) .plain [1]))).map (fun t =>
      match t.link.env with
      | .ideal e => e.mode == .idle
      | .oracle _ => false) = some true := by decide

/-! ### Every row of the opcode table runs as the first instruction after reset -/

/-- Does the word run? -/
def runs (nbits w : Nat) : Bool := (next? (step (State.reset.withFetchWord nbits w))).isSome

theorem test_host_rows_run :
    [0x000, 0x100, 0x200, 0x300, 0x400, 0x500, 0x600, 0x700, 0x800, 0x900, 0xA00, 0xB00, 0xC00, 0xD00, 0xE00, 0xF00].all
      (runs 16) = true := by decide
theorem test_short_rows_run : [0xF0, 0xC3, 0xB4, 0x96, 0xE1, 0xD2, 0x55].all (runs 8) = true := by decide
theorem test_long_rows_run : [0xE100, 0xD200, 0xA500, 0x7800].all (runs 16) = true := by decide

/-! ### A witness for the hypotheses of every obligation that has some, one for each clause -/

theorem test_hyp_EncodeDecodeRoundTrip :
    decode (.hostWord 0xFFF) = .ok (.reservedF 0xFF) ∧ decode (.bridge ⟨0xD2, some 0xFF⟩) = .ok (.brConfigWrite 0xFF) ∧
      decode (.pointer 0xD2) = .ok .ptrChannel ∧ decode (.bus 0x55) = .ok .busMatchRom := by decide

theorem test_hyp_CommandLengthAndNibbles :
    encode (.brTriplet 0x80) = .bridge ⟨0x78, some 0x80⟩ ∧ encode .ptrData = .pointer 0xE1 := by decide

theorem test_hyp_TableWordRunsItsInstruction :
    decodeTableWord 12 0x3C3 = some (.readReg 0xC3) ∧ decodeTableWord 16 0xE1F0 = some (.brSetReadPointer 0xF0) ∧
      decodeTableWord 8 0xB4 = some .brBusReset ∧ decodeTableWord 8 0xD2 = some .ptrChannel ∧
      decodeTableWord 8 0x55 = some .busMatchRom := by decide

theorem test_hyp_IdentifierConversionIsLossless : (0 : Nat) < 8 ∧ (7 : Nat) < 8 := by decide

theorem test_hyp_WalkPositionIsIdentifierBit :
    ((1 : Nat) ≤ 1 ∧ (1 : Nat) ≤ 64) ∧ ((1 : Nat) ≤ 64 ∧ (64 : Nat) ≤ 64) := by decide

theorem test_hyp_StepRunsTheFetchedInstruction :
    (called 0x601).fetched = some (.ok (.triplet 0x01)) ∧ (called 0x601).ctl.fsm = .dispatch ∧
      (at_ (.owReset .brIssue)).ctl.issuing = some ⟨0xB4, none⟩ ∧
      ((at_ .cfgCompare).ctl.issuing = none ∧ (at_ .cfgCompare).ctl.running = some (.cfgWrite 0)) ∧
      State.reset.ctl.fsm = .idle ∧ (at_ .complete).ctl.fsm = .complete := by decide

theorem test_hyp_IdleAndComplete :
    (State.reset.ctl.fsm = .idle ∧ State.reset.host = []) ∧ (at_ .complete).ctl.fsm = .complete ∧
      (let s := { State.reset with host := [.cw 0x100] }; s.ctl.fsm = .idle ∧ s.host = [.cw 0x100]) ∧
      (let s := { State.reset with host := [.argId 1, .cw 0xC00] }; s.ctl.fsm = .idle ∧ s.host = [.argId 1, .cw 0xC00]) := by
  decide

theorem test_hyp_RequestsOnlyInIdle :
    (encode (.owReset 0) = .hostWord 0x100 ∧ State.reset.ctl.fsm = .idle) ∧
      (encode (.owReset 0) = .hostWord 0x100 ∧ encode (.cfgWrite 0) = .hostWord 0x800 ∧
        (at_ .cfgCompare).ctl.running = some (.cfgWrite 0) ∧ opField 0x100 ≠ opField 0x800) ∧
      (encode (.reservedF 0xFF) = .hostWord 0xFFF ∧ (at_ .complete).ctl.fsm = .complete) ∧
      (at_ .dispatch).ctl.fsm ≠ .idle ∧ State.reset.ctl.fsm = .idle := by decide

theorem test_hyp_DispatchEntersTheOperation : (called 0x100).ctl.fsm = .dispatch := by decide

theorem test_hyp_ReservedCodesAreIllegal : (called 0xFFF).ctl.fsm = .dispatch := by decide

theorem test_hyp_IssuePointRunsItsCommand :
    (at_ (.owReset .brIssue)).ctl.issuing = some ⟨0xB4, none⟩ ∧
      (at_ (.owReset .brIssue)).ctl.running = some (.owReset 0) := by decide

theorem test_hyp_OwResetResult :
    (at_ (.owReset .brTrue)).ctl.fsm = .owReset .brTrue ∧ (at_ (.owReset .brFalse)).ctl.fsm = .owReset .brFalse ∧
      (at_ (.owReset (.brPpd .pTimeout))).ctl.fsm = .owReset (.brPpd .pTimeout) ∧
      (at_ (.owReset (.brBusy .pTimeout))).ctl.fsm = .owReset (.brBusy .pTimeout) ∧
      ((answering (called 0x100) [0x02, 0x02]).Dispatching (.owReset 0) ∧
        (answering (called 0x100) [0x02, 0x02]).WillAnswer [0x02, 0x02] ∧ ppd 0x02 = true ∧ busy 0x02 = false) :=
  ⟨rfl, rfl, rfl, rfl, ⟨rfl, rfl⟩, ⟨[], [1, 1, 1, 1], 0, rfl⟩, rfl, rfl⟩

theorem test_hyp_BusyWaitResult :
    (at_ (.busyWait .pOk)).ctl.fsm = .busyWait .pOk ∧ (at_ (.busyWait .pTimeout)).ctl.fsm = .busyWait .pTimeout ∧
      ((answering (called 0x200) [0x00]).Dispatching (.busyWait 0) ∧ (answering (called 0x200) [0x00]).WillAnswer [0x00] ∧
        busy 0x00 = false) :=
  ⟨rfl, rfl, ⟨rfl, rfl⟩, ⟨[], [1, 1, 1, 1], 0, rfl⟩, rfl⟩

theorem test_hyp_PollPoints : ∀ p ∈ ([.pT0, .pSample .rrSel, .pSample .rrRd, .pTest, .pTime, .pOk, .pTimeout] : List PollPt),
    (at_ (.busyWait p)).ctl.fsm = .busyWait p ∧ (at_ (.owReset (.brPpd p))).ctl.fsm = .owReset (.brPpd p) ∧
      (at_ (.owReset (.brBusy p))).ctl.fsm = .owReset (.brBusy p) := by decide

theorem test_hyp_ReadRegResult :
    (at_ (.readReg .rrRd)).ctl.fsm = .readReg .rrRd ∧ (at_ (.readRegWait .pTimeout)).ctl.fsm = .readRegWait .pTimeout ∧
      ((0xC3 : Byte) ≠ 0xF0 ∧ (answering (called 0x3C3) [0x00, 0x05]).Dispatching (.readReg 0xC3) ∧
        (answering (called 0x3C3) [0x00, 0x05]).WillAnswer [0x00, 0x05] ∧ busy 0x00 = false) ∧
      ((answering (called 0x3F0) [0x01]).Dispatching (.readReg 0xF0) ∧ (answering (called 0x3F0) [0x01]).WillAnswer [0x01]) :=
  ⟨rfl, rfl, ⟨by decide, ⟨rfl, rfl⟩, ⟨[], [1, 1, 1, 1], 0, rfl⟩, rfl⟩, ⟨rfl, rfl⟩, ⟨[], [1, 1, 1, 1], 0, rfl⟩⟩

theorem test_hyp_CommandOperationsComplete :
    (at_ (.writeByte .cOk)).ctl.fsm = .writeByte .cOk ∧ (at_ (.triplet .cOk)).ctl.fsm = .triplet .cOk ∧
      (at_ (.devReset .cOk)).ctl.fsm = .devReset .cOk ∧ (at_ (.readByteData .rrRd)).ctl.fsm = .readByteData .rrRd := by
  decide

theorem test_hyp_CommandTimeoutReported : ∀ p ∈ ([.cPre .pTimeout, .cPost .pTimeout, .cFail] : List CmdPt),
    (at_ (.writeByte p)).ctl.fsm = .writeByte p ∧ (at_ (.readByte p)).ctl.fsm = .readByte p ∧
      (at_ (.triplet p)).ctl.fsm = .triplet p ∧ (at_ (.devReset p)).ctl.fsm = .devReset p ∧
      (at_ (.cfgWrite p)).ctl.fsm = .cfgWrite p := by decide

theorem test_hyp_WriteByteAndDevResetRun :
    ((∃ a : Byte, Instr.writeByte 0xCC = .writeByte a ∧ (⟨0xA5, some 0xCC⟩ : Frame) = ⟨0xA5, some a⟩) ∧
        (answering (called 0x4CC) [0, 0]).Dispatching (.writeByte 0xCC) ∧ (answering (called 0x4CC) [0, 0]).WillAnswer [0, 0]) ∧
      ((∃ a : Byte, Instr.devReset 0 = .devReset a ∧ (⟨0xF0, none⟩ : Frame) = ⟨0xF0, none⟩) ∧
        (answering (called 0x700) [0, 0x10]).Dispatching (.devReset 0) ∧
        (answering (called 0x700) [0, 0x10]).WillAnswer [0, 0x10]) ∧ busy 0 = false ∧ busy 0x10 = false :=
  ⟨⟨⟨0xCC, rfl, rfl⟩, ⟨rfl, rfl⟩, ⟨[], [1, 1, 1, 1], 0, rfl⟩⟩, ⟨⟨0, rfl, rfl⟩, ⟨rfl, rfl⟩, ⟨[], [1, 1, 1, 1], 0, rfl⟩⟩, rfl, rfl⟩

theorem test_hyp_ReadByteRun :
    (answering (called 0x500) [0, 0, 0xFF]).Dispatching (.readByte 0) ∧
      (answering (called 0x500) [0, 0, 0xFF]).WillAnswer [0, 0, 0xFF] ∧ busy 0 = false :=
  ⟨⟨rfl, rfl⟩, ⟨[], [1, 1, 1, 1], 0, rfl⟩, rfl⟩

theorem test_hyp_TripletRun :
    (answering (called 0x601) [0x02, 0x82]).Dispatching (.triplet 1) ∧
      (answering (called 0x601) [0x02, 0x82]).WillAnswer [0x02, 0x82] ∧ busy 0x02 = false ∧ busy 0x82 = false :=
  ⟨⟨rfl, rfl⟩, ⟨[], [1, 1, 1, 1], 0, rfl⟩, rfl, rfl⟩

theorem test_hyp_CfgWriteResult :
    (at_ .cfgCompare).ctl.fsm = .cfgCompare ∧
      ((answering (called 0x801) [0, 0, 0xE3]).Dispatching (.cfgWrite 1) ∧
        (answering (called 0x801) [0, 0, 0xE3]).WillAnswer [0, 0, 0xE3] ∧ busy 0 = false) :=
  ⟨rfl, ⟨rfl, rfl⟩, ⟨[], [1, 1, 1, 1], 0, rfl⟩, rfl⟩

theorem test_hyp_StuckBusyWaitTimesOutOnTime :
    (onIdeal (called 0x20A) .stuck []).Dispatching (.busyWait 10) ∧ (onIdeal (called 0x20A) .stuck []).OnIdeal .stuck [] :=
  ⟨⟨rfl, rfl⟩, _, rfl, rfl, rfl, rfl, rfl⟩

/-- Each of the five command operations meets the hypotheses. -/
theorem test_hyp_StuckBridgeNeverGetsTheCommand :
    ∀ x ∈ [(0x4CC, Instr.writeByte 0xCC), (0x500, .readByte 0), (0x601, .triplet 1), (0x700, .devReset 0), (0x801, .cfgWrite 1)],
      (∃ a : Byte, x.2 = .writeByte a ∨ x.2 = .readByte a ∨ x.2 = .triplet a ∨ x.2 = .devReset a ∨ x.2 = .cfgWrite a) ∧
        (onIdeal (called x.1) .stuck []).Dispatching x.2 ∧ (onIdeal (called x.1) .stuck []).OnIdeal .stuck [] := by
  simp only [List.forall_mem_cons]
  refine ⟨⟨⟨0xCC, by simp⟩, ⟨rfl, rfl⟩, _, rfl, rfl, rfl, rfl, rfl⟩, ⟨⟨0, by simp⟩, ⟨rfl, rfl⟩, _, rfl, rfl, rfl, rfl, rfl⟩,
    ⟨⟨1, by simp⟩, ⟨rfl, rfl⟩, _, rfl, rfl, rfl, rfl, rfl⟩, ⟨⟨0, by simp⟩, ⟨rfl, rfl⟩, _, rfl, rfl, rfl, rfl, rfl⟩,
    ⟨⟨1, by simp⟩, ⟨rfl, rfl⟩, _, rfl, rfl, rfl, rfl, rfl⟩, ?_⟩
  simp

theorem test_hyp_SearchOperationsRunTheStep :
    ((searchPoint .sLdf (at_ (.searchFirst .sLdf))).2 = .goto (.sReset .brIssue) ∧
        (at_ (.searchFirst .sLdf)).ctl.fsm = .searchFirst .sLdf ∧ (at_ (.searchNext .sLdf)).ctl.fsm = .searchNext .sLdf ∧
        (at_ (.enumerate (.eFirst .sLdf))).ctl.fsm = .enumerate (.eFirst .sLdf) ∧
        (at_ (.enumerate (.eNext .sLdf))).ctl.fsm = .enumerate (.eNext .sLdf)) ∧
      ((searchPoint .sFound (at_ (.searchFirst .sFound))).2 = .done (.found 0) ∧
        (at_ (.searchNext .sFound)).ctl.fsm = .searchNext .sFound ∧
        (at_ (.enumerate (.eNext .sFound))).ctl.fsm = .enumerate (.eNext .sFound)) ∧
      ((searchPoint .sFail (at_ (.searchFirst .sFail))).2 = .done .exhausted ∧
        (at_ (.searchNext .sFail)).ctl.fsm = .searchNext .sFail ∧
        (at_ (.enumerate (.eFirst .sFail))).ctl.fsm = .enumerate (.eFirst .sFail)) ∧
      (at_ (.enumerate .eDone)).ctl.fsm = .enumerate .eDone := by decide

theorem test_hyp_SearchStepExits :
    (at_ (.searchFirst .sReg)).ctl.fsm = .searchFirst .sReg ∧ (at_ (.searchNext .sReg)).ctl.fsm = .searchNext .sReg ∧
      (at_ (.searchFirst .sFound)).ctl.fsm = .searchFirst .sFound ∧
      (at_ (.searchNext .sFound)).ctl.fsm = .searchNext .sFound ∧
      (at_ (.searchFirst .sFail)).ctl.fsm = .searchFirst .sFail ∧
      (at_ (.searchNext .sFail)).ctl.fsm = .searchNext .sFail := by decide

theorem test_hyp_FreshPassClearsTheRegistry :
    (State.reset.search.lastDiscrepancy = 0 ∧ State.reset.search.lastDeviceFlag = false) ∧
      ¬ ((searching State.reset (idToRom 1) 64 0 false).search.lastDiscrepancy = 0 ∧
        (searching State.reset (idToRom 1) 64 0 false).search.lastDeviceFlag = false) := by decide

/-- A walk at its first position and one at its last, with `LastDiscrepancy` above, at and below the position. -/
theorem test_hyp_TieBreakRule :
    (walking (searching State.reset (idToRom 1) 64 0 false) 1 0 0 0x01).walk.Coherent ∧ (1 : Pos) < 64 ∧
      (walking (searching State.reset (idToRom 1) 64 0 false) 64 0 7 0x80).walk.Coherent ∧ (64 : Pos) = 64 ∧
      (walking (searching State.reset (idToRom 1) 63 0 false) 64 0 7 0x80).walk.Coherent ∧ (63 : Pos) < 64 := by
  unfold Walk.Coherent
  decide

theorem test_hyp_DiscrepancyTracking :
    (let s := seeing (walking State.reset 8 0 0 0x80) 0x02;
      (s.link.snap.getLsbD 5 = false ∧ s.link.snap.getLsbD 6 = false ∧ s.link.snap.getLsbD 7 = false) ∧ s.walk.n.toNat ≤ 8) ∧
    (let s := seeing (walking State.reset 9 0 1 0x01) 0x02;
      (s.link.snap.getLsbD 5 = false ∧ s.link.snap.getLsbD 6 = false ∧ s.link.snap.getLsbD 7 = false) ∧ 8 < s.walk.n.toNat) ∧
    (let s := seeing (walking State.reset 8 0 0 0x80) 0x82;
      ¬ (s.link.snap.getLsbD 5 = false ∧ s.link.snap.getLsbD 6 = false ∧ s.link.snap.getLsbD 7 = false)) := by decide

theorem test_hyp_StoreWritesTheReportedBit :
    (walking State.reset 1 0 0 0x01).walk.Coherent ∧ (walking State.reset 64 0 7 0x80).walk.Coherent ∧
      ((1 : Nat) ≤ 64 ∧ (64 : Nat) ≤ 64) := by
  unfold Walk.Coherent
  decide

theorem test_hyp_AdvanceWalksAllPositions : (0 : Nat) ≤ 64 ∧ (64 : Nat) ≤ 64 := by decide

theorem test_hyp_EndOfWalk :
    (walking State.reset 65 0 8 0x01).walk.lastZero = 0 ∧ (walking State.reset 65 64 8 0x01).walk.lastZero ≠ 0 := by decide

theorem test_hyp_AllZeroIdentifierFails :
    romToId State.reset.search.rom = 0 ∧ romToId (searching State.reset (idToRom 1) 0 0 false).search.rom ≠ 0 := by decide

theorem test_hyp_NextAfterLastDevice :
    ((searching (called 0xA00) (idToRom 1) 0 8 true).Dispatching (.searchNext 0) ∧
        (searching (called 0xA00) (idToRom 1) 0 8 true).search.lastDeviceFlag = true) ∧
      ((searching (at_ (.enumerate (.eNext .sFresh))) (idToRom 1) 0 8 true).ctl.fsm = .enumerate (.eNext .sFresh) ∧
        (searching (at_ (.enumerate (.eNext .sFresh))) (idToRom 1) 0 8 true).search.lastDeviceFlag = true) :=
  ⟨⟨⟨rfl, rfl⟩, rfl⟩, rfl, rfl⟩

theorem test_hyp_EmptyBusEnumeratesToZero :
    (onIdeal (called 0xB00) .plain []).Dispatching (.enumerate 0) ∧ (onIdeal (called 0xB00) .plain []).OnIdeal .plain [] :=
  ⟨⟨rfl, rfl⟩, _, rfl, rfl, rfl, rfl, rfl⟩

theorem test_hyp_FirstSearchFindsTheFirstDevice :
    (onIdeal (called 0x900) .plain [2, 1]).Dispatching (.searchFirst 0) ∧
      (onIdeal (called 0x900) .plain [2, 1]).OnIdeal .plain [2, 1] ∧ ([2, 1] : List RomId) ≠ [] ∧
      (0 : RomId) ∉ ([2, 1] : List RomId) :=
  ⟨⟨rfl, rfl⟩, ⟨_, rfl, rfl, rfl, rfl, rfl⟩, by decide, by decide⟩

theorem test_hyp_SingleDevicePass :
    (onIdeal (called 0xB00) .plain [0x280000001234AB7E]).Dispatching (.enumerate 0) ∧
      (onIdeal (called 0xB00) .plain [0x280000001234AB7E]).OnIdeal .plain [0x280000001234AB7E] ∧
      (0x280000001234AB7E : RomId) ≠ 0 := ⟨⟨rfl, rfl⟩, ⟨_, rfl, rfl, rfl, rfl, rfl⟩, by decide⟩

theorem test_hyp_EnumerationIsCompleteAndOrdered :
    (onIdeal (called 0xB00) .plain [0x128, 0x110, 0x2A8]).Dispatching (.enumerate 0) ∧
      (onIdeal (called 0xB00) .plain [0x128, 0x110, 0x2A8]).OnIdeal .plain [0x128, 0x110, 0x2A8] ∧
      ([0x128, 0x110, 0x2A8] : List RomId).Nodup ∧ (0 : RomId) ∉ ([0x128, 0x110, 0x2A8] : List RomId) ∧
      ([0x128, 0x110, 0x2A8] : List RomId).length ≤ 16 :=
  ⟨⟨rfl, rfl⟩, ⟨_, rfl, rfl, rfl, rfl, rfl⟩, by decide, by decide, by decide⟩

theorem test_hyp_AppendFillsTheNextSlot :
    State.reset.registry.count.toNat < 16 ∧ (⟨Vector.replicate 16 7, 15⟩ : Registry).count.toNat < 16 ∧
      16 ≤ (⟨Vector.replicate 16 7, 16⟩ : Registry).count.toNat := by decide

theorem test_hyp_LookupFindsTheLowestSlot :
    (let s := registered (at_ (.regLookup .gScan)) 0x2A8;
      s.ctl.fsm = .regLookup .gScan ∧ 3 < s.registry.count.toNat ∧ s.registry.slot 3 = s.ctl.argId ∧
        ∀ j < 3, s.registry.slot j ≠ s.ctl.argId) ∧
    (let s := registered (at_ (.regLookup .gScan)) 0x111;
      s.ctl.fsm = .regLookup .gScan ∧ ∀ i < s.registry.count.toNat, s.registry.slot i ≠ s.ctl.argId) ∧
    (at_ (.regLookup .gDone)).ctl.fsm = .regLookup .gDone := by decide

theorem test_hyp_LookupFindsTheLowestSlot_run :
    ((registered (called 0xC00) 0x111).Dispatching (.regLookup 0) ∧
        ∀ i < (registered (called 0xC00) 0x111).registry.count.toNat,
          (registered (called 0xC00) 0x111).registry.slot i ≠ (registered (called 0xC00) 0x111).ctl.argId) ∧
      ((called 0xC00).Dispatching (.regLookup 0) ∧ (called 0xC00).registry.wf ∧ (called 0xC00).ctl.argId = 0) :=
  ⟨⟨⟨rfl, rfl⟩, by decide⟩, ⟨rfl, rfl⟩, ⟨by decide, fun i h => absurd h (Nat.not_lt_zero i),
    fun i _ => Registry.clear_slot State.reset.registry i⟩, rfl⟩

theorem test_hyp_GetAllCountsTheSlots :
    (at_ (.regGetall .gScan)).ctl.fsm = .regGetall .gScan ∧ (at_ (.regGetall .gDone)).ctl.fsm = .regGetall .gDone ∧
      (registered (called 0xD02) 0).Dispatching (.regGetall 2) := ⟨rfl, rfl, rfl, rfl⟩

theorem test_hyp_HostSlotRead : (15 : Nat) < 16 ∧ (16 : Nat) ≤ 16 := by decide

/-- The power-on state meets the registry's invariant, and a step from it answers a next state. -/
theorem test_hyp_RegistryStaysCanonical : State.reset.RegistryOk ∧ step State.reset = .next State.reset :=
  ⟨⟨⟨by decide, fun i h => absurd h (Nat.not_lt_zero i), fun i _ => Registry.clear_slot State.reset.registry i⟩,
    fun h => by cases h⟩, rfl⟩

/-- A walk at its last position meets the invariant, and a step from it answers a next state. -/
theorem test_hyp_SearchStateStaysLegal :
    (walking (at_ (.searchFirst .sAdv)) 64 64 7 0x80).SearchOk ∧
      ∃ t, step (walking (at_ (.searchFirst .sAdv)) 64 64 7 0x80) = .next t :=
  ⟨⟨by decide, by decide, rfl, by unfold Walk.Coherent; decide, by decide⟩, _, rfl⟩

theorem test_hyp_EveryStepAnswersAndSendsItsCommand :
    ({ at_ (.devReset .cIssue) with ctl := ⟨.devReset .cIssue, 0, 0, ⟨0xF0, none⟩⟩ } : State).CmdOk := fun _ => rfl

/-- At the issue point of a command, after a status read that showed busy = 0. -/
theorem test_hyp_CommandsOnlyToAnIdleBridge :
    let s : State := { at_ (.devReset .cIssue) with
      link := { State.reset.link with
        trace := [.linkRead Config.bridgeAddr 0x00, .linkWrite Config.bridgeAddr (selectFrame statusPtr)] } }
    s.LinkOk ∧ ∃ t, step s = .next t ∧ t.link.trace = sent ⟨0xF0, none⟩ :: s.link.trace :=
  ⟨⟨⟨[], rfl⟩, rfl⟩, _, rfl, rfl⟩

theorem test_hyp_ClockNeverGoesBack :
    (at_ (.busyWait .pT0)).ClockOk ∧ ∃ t, step (at_ (.busyWait .pT0)) = .next t := ⟨Nat.le_refl 0, _, rfl⟩

theorem test_hyp_AtMostOneEventPerStep : ∃ t, step (at_ (.owReset .brIssue)) = .next t := ⟨_, rfl⟩

theorem test_hyp_ResultRegistersHaveTheirWriters :
    (∃ t, exec (.busyWait 0) (at_ (.busyWait .pOk)) = .next t ∧ t.port.resCode = .ok) ∧
      ∃ t, step (registered (arg (at_ (.regGetall .gDone)) 16) 0) = .next t ∧ t.port.resCount = 4 ∧ t.ctl.fsm = .complete :=
  ⟨⟨_, rfl, rfl⟩, _, rfl, rfl, rfl⟩

theorem test_hyp_OnlyTheSearchWritesItsState :
    ∃ t, exec (.searchFirst 0) (at_ (.searchFirst .sFin)) = .next t ∧
      (at_ (.searchFirst .sFin)).search.lastDeviceFlag = false ∧ t.search.lastDeviceFlag = true := ⟨_, rfl, rfl, rfl⟩

theorem test_hyp_ArgIdWriteDoesNotReachTheOperation :
    ((at_ (.regLookup .gScan)).ctl.fsm ≠ .idle ∧ ∃ t, step (at_ (.regLookup .gScan)) = .next t) ∧
      ((called 0xC00).ctl.fsm ≠ .idle ∧ ∃ t, step (called 0xC00) = .next t) :=
  ⟨⟨by decide, _, rfl⟩, by decide, _, rfl⟩

theorem test_hyp_IdealTripletTable : (Ideal.init [1, 2] .plain).variant = .plain := rfl

theorem test_hyp_IdealCommands :
    ((Ideal.init [1, 2] .plain).variant = .plain ∧ (0xB4 : Byte) ≠ 0xF0 ∧ (0xB4 : Byte) ≠ 0xC3 ∧ (0xB4 : Byte) ≠ 0xE1 ∧
      (1 : Nat) ≠ 0 ∧ (0 : Nat) ≠ 1 ∧ (Ideal.init [1, 2] .plain).mode = .idle) ∧
      (Ideal.init [] .stuck).variant = .stuck ∧ (Ideal.init [] .low).variant = .low ∧
      (Ideal.init [] (.badCfg 0xE3)).variant = .badCfg 0xE3 := by decide

end Sys2Proof.Tests
end

/-! ## What a step does to the link side

The one-event view of R10: every step leaves the link side as it is, or applies one of its four primitives to it. -/

section
namespace Sys2Proof.Machine

/-! ### The instructions below the host word -/

/-- The bytes a bridge command, a pointer code or a bus command sends (R102, R103, R104); an instruction of the host word
layer sends none itself. -/
def linkFrame : Instr → Option Frame
  | .brDeviceReset => some deviceResetFrame
  | .brSetReadPointer p => some (selectFrame p)
  | .brConfigWrite p => some (configWriteFrame p)
  | .brChannelSelect p => some (channelSelectFrame p)
  | .brBusReset => some busResetFrame
  | .brWriteByte p => some (writeByteFrame p)
  | .brReadByte => some readByteFrame
  | .brTriplet p => some (tripletFrame p)
  | .ptrStatus => some (selectFrame statusPtr)
  | .ptrData => some (selectFrame dataPtr)
  | .ptrChannel => some (selectFrame channelPtr)
  | .ptrConfig => some (selectFrame configPtr)
  | .busSearch => some (writeByteFrame searchCommand)
  | .busMatchRom => some (writeByteFrame matchRomCommand)
  | .owReset _ | .busyWait _ | .readReg _ | .writeByte _ | .readByte _ | .triplet _ | .devReset _ | .cfgWrite _
  | .searchFirst _ | .searchNext _ | .enumerate _ | .regLookup _ | .regGetall _
  | .reserved0 _ | .reservedE _ | .reservedF _ => none

/-- An instruction that sends bytes is the issue of those bytes, in every state. -/
theorem exec_eq_issue_of_linkFrame {i : Instr} {f : Frame} (h : linkFrame i = some f) (s : State) :
    exec i s = .next (s.issue f) := by
  cases i <;> cases h <;> rfl

/-- Settles O14: each of the fourteen instructions is the issue of its frame, and an issue is one `LinkWrite`. -/
theorem linkInstructionsAreOneWrite : Obligations.LinkInstructionsAreOneWrite := by
  intro p s t
  have issue_eq (f : Frame) : s.issue f = t f := rfl
  have runs {i : Instr} {f : Frame} (h : linkFrame i = some f) : exec i s = .next (t f) :=
    issue_eq f ▸ exec_eq_issue_of_linkFrame h s
  exact ⟨runs rfl, runs rfl, runs rfl, runs rfl, runs rfl, runs rfl, runs rfl, runs rfl, runs rfl, runs rfl, runs rfl,
    runs rfl, runs rfl, runs rfl⟩

/-! ### One primitive a step -/

/-- What one program point can do to the link side: nothing, or one call of a primitive (R10, R34). -/
inductive Link.Step (l : Link) : Link → Prop
  | none : Link.Step l l
  | write (f : Frame) : Link.Step l (l.write f)
  | read (ptr : Byte) : Link.Step l (l.read ptr)
  | tick : Link.Step l l.tick
  | startPoll : Link.Step l l.startPoll

theorem readPoint_linkStep (ptr : Byte) (p : ReadPt) (l : Link) : l.Step (readPoint ptr p l).1 := by
  cases p with
  | rrSel => exact .write _
  | rrRd => exact .read _

theorem pollPoint_linkStep (c : Cond) (T : Nat) (p : PollPt) (l : Link) : l.Step (pollPoint c T p l).1 := by
  cases p with
  | pT0 => exact .startPoll
  | pSample r => exact readPoint_linkStep statusPtr r l
  | pTime => exact .tick
  | pTest | pOk | pTimeout => exact .none

theorem cmdPoint_linkStep (cmd : Frame) (p : CmdPt) (l : Link) : l.Step (cmdPoint cmd p l).1 := by
  cases p with
  | cPre q | cPost q => exact pollPoint_linkStep _ _ q l
  | cIssue => exact .write _
  | cOk | cFail => exact .none

theorem resetPoint_linkStep (p : ResetPt) (l : Link) : l.Step (resetPoint p l).1 := by
  cases p with
  | brIssue => exact .write _
  | brPpd q | brBusy q => exact pollPoint_linkStep _ _ q l
  | brTrue | brFalse => exact .none

theorem beginStep_link (s : State) : s.beginStep.link = s.link := by
  unfold State.beginStep
  split <;> rfl

theorem trackZero_link (s : State) : s.trackZero.link = s.link := by
  unfold State.trackZero
  split <;> rfl

theorem searchPoint_linkStep (p : SearchPt) (s : State) : s.link.Step (searchPoint p s).1.link := by
  cases p with
  | sFresh => exact (beginStep_link s).symm ▸ .none
  | sZero => exact (trackZero_link s).symm ▸ .none
  | sReset q =>
    have hstep := resetPoint_linkStep q s.link
    rcases hq : resetPoint q s.link with ⟨l, q' | _ | _⟩ <;> simpa [searchPoint, hq] using hstep
  | sCmd q | sTrip q => exact cmdPoint_linkStep s.ctl.cmd q s.link
  | sLdf | sInit | sDir | sDecode | sAbsent | sStore | sAdv | sFin | sAllzero | sReg | sFound | sFail => exact .none

/-! ### The calls of the host operations -/

theorem callCmd_linkStep {s : State} {o : Op} {p : CmdPt} {stay : CmdPt → Fsm} {ok : State → State}
    (hok : ∀ u, (ok u).link = u.link) : s.link.Step (s.callCmd o p stay ok).link := by
  have hstep := cmdPoint_linkStep s.ctl.cmd p s.link
  unfold State.callCmd
  split <;> next h => simpa [h, hok] using hstep

theorem callRead_linkStep {s : State} {ptr : Byte} {p : ReadPt} {stay : ReadPt → Fsm} {ok : State → State}
    (hok : ∀ u, (ok u).link = u.link) : s.link.Step (s.callRead ptr p stay ok).link := by
  have hstep := readPoint_linkStep ptr p s.link
  unfold State.callRead
  split <;> next h => simpa [h, hok] using hstep

theorem callPoll_linkStep {s : State} {T : Nat} {p : PollPt} {stay : PollPt → Fsm} {ok timeout : State → State}
    (hok : ∀ u, (ok u).link = u.link) (htimeout : ∀ u, (timeout u).link = u.link) :
    s.link.Step (s.callPoll T p stay ok timeout).link := by
  have hstep := pollPoint_linkStep .notBusy T p s.link
  unfold State.callPoll
  split <;> next h => simpa [h, hok, htimeout] using hstep

@[simp] theorem reportSearch_link (s : State) (r : SearchResult) : (s.reportSearch r).link = s.link := by
  cases r <;> rfl

theorem callSearch_linkStep (s : State) (p : SearchPt) (stay : SearchPt → Fsm) :
    s.link.Step (s.callSearch p stay).link := by
  have hstep := searchPoint_linkStep p s
  unfold State.callSearch
  split <;> next h => simpa [h] using hstep

/-! ### Outcomes -/

/-- The next state of an outcome, if it has one, comes from this link side by at most one primitive. -/
def LinkStepTo (l : Link) (o : Host.Outcome State Fault Refusal) : Prop := ∀ t, o = .next t → l.Step t.link

@[simp] theorem linkStepTo_next {l : Link} {t : State} : LinkStepTo l (.next t) ↔ l.Step t.link := by
  simp [LinkStepTo]

/-- A request has no link event, accepted or not (R76). -/
theorem request_linkStepTo (s : State) (w : CmdWord) : LinkStepTo s.link (s.request w) := by
  rcases request_cases s w with ⟨_, h⟩ | ⟨_, h⟩ <;> rw [h]
  · exact linkStepTo_next.2 .none
  · intro t ht
    cases ht

theorem execOwReset_linkStepTo (a : Byte) (s : State) : LinkStepTo s.link (execOwReset a s) := by
  unfold execOwReset
  split
  · exact linkStepTo_next.2 .none
  · next p _ =>
    have hstep := resetPoint_linkStep p s.link
    split <;> next h => simpa [h] using hstep
  · exact request_linkStepTo s _

theorem execBusyWait_linkStepTo (a : Byte) (s : State) : LinkStepTo s.link (execBusyWait a s) := by
  unfold execBusyWait
  split
  · exact linkStepTo_next.2 .none
  · exact linkStepTo_next.2 (callPoll_linkStep (fun _ => rfl) fun _ => rfl)
  · exact request_linkStepTo s _

theorem execReadReg_linkStepTo (a : Byte) (s : State) : LinkStepTo s.link (execReadReg a s) := by
  unfold execReadReg
  split
  · exact linkStepTo_next.2 .none
  · exact linkStepTo_next.2 (callPoll_linkStep (fun _ => rfl) fun _ => rfl)
  · exact linkStepTo_next.2 (callRead_linkStep fun _ => rfl)
  · exact request_linkStepTo s _

theorem execWriteByte_linkStepTo (a : Byte) (s : State) : LinkStepTo s.link (execWriteByte a s) := by
  unfold execWriteByte
  split
  · exact linkStepTo_next.2 .none
  · exact linkStepTo_next.2 (callCmd_linkStep fun _ => rfl)
  · exact request_linkStepTo s _

theorem execReadByte_linkStepTo (a : Byte) (s : State) : LinkStepTo s.link (execReadByte a s) := by
  unfold execReadByte
  split
  · exact linkStepTo_next.2 .none
  · exact linkStepTo_next.2 (callCmd_linkStep fun _ => rfl)
  · exact linkStepTo_next.2 (callRead_linkStep fun _ => rfl)
  · exact request_linkStepTo s _

theorem execTriplet_linkStepTo (a : Byte) (s : State) : LinkStepTo s.link (execTriplet a s) := by
  unfold execTriplet
  split
  · exact linkStepTo_next.2 .none
  · exact linkStepTo_next.2 (callCmd_linkStep fun _ => rfl)
  · exact request_linkStepTo s _

theorem execDevReset_linkStepTo (a : Byte) (s : State) : LinkStepTo s.link (execDevReset a s) := by
  unfold execDevReset
  split
  · exact linkStepTo_next.2 .none
  · exact linkStepTo_next.2 (callCmd_linkStep fun _ => rfl)
  · exact request_linkStepTo s _

theorem execCfgWrite_linkStepTo (a : Byte) (s : State) : LinkStepTo s.link (execCfgWrite a s) := by
  unfold execCfgWrite
  split
  · exact linkStepTo_next.2 .none
  · exact linkStepTo_next.2 (callCmd_linkStep fun _ => rfl)
  · exact linkStepTo_next.2 (callRead_linkStep fun _ => rfl)
  · split <;> exact linkStepTo_next.2 .none
  · exact request_linkStepTo s _

theorem execSearchFirst_linkStepTo (a : Byte) (s : State) : LinkStepTo s.link (execSearchFirst a s) := by
  unfold execSearchFirst
  split
  · exact linkStepTo_next.2 .none
  · exact linkStepTo_next.2 (callSearch_linkStep ..)
  · exact request_linkStepTo s _

theorem execSearchNext_linkStepTo (a : Byte) (s : State) : LinkStepTo s.link (execSearchNext a s) := by
  unfold execSearchNext
  split
  · exact linkStepTo_next.2 .none
  · exact linkStepTo_next.2 (callSearch_linkStep ..)
  · exact request_linkStepTo s _

theorem execEnumerate_linkStepTo (a : Byte) (s : State) : LinkStepTo s.link (execEnumerate a s) := by
  unfold execEnumerate
  split
  case h_2 p _ | h_3 p _ =>
    have hstep := searchPoint_linkStep p s
    split <;> next h => simpa [h] using hstep
  · exact linkStepTo_next.2 .none
  · exact linkStepTo_next.2 .none
  · exact request_linkStepTo s _

theorem execRegLookup_linkStepTo (a : Byte) (s : State) : LinkStepTo s.link (execRegLookup a s) := by
  unfold execRegLookup
  split
  · exact linkStepTo_next.2 .none
  · split <;> exact linkStepTo_next.2 .none
  · exact linkStepTo_next.2 .none
  · exact request_linkStepTo s _

theorem execRegGetall_linkStepTo (a : Byte) (s : State) : LinkStepTo s.link (execRegGetall a s) := by
  unfold execRegGetall
  split
  · exact linkStepTo_next.2 .none
  · exact linkStepTo_next.2 .none
  · exact linkStepTo_next.2 .none
  · exact request_linkStepTo s _

theorem illegal_linkStepTo (s : State) (op : BitVec 4) (a : Byte) : LinkStepTo s.link (s.illegal op a) := by
  unfold State.illegal
  split
  · exact linkStepTo_next.2 .none
  · exact request_linkStepTo s _

/-- An instruction that sends bytes writes them. -/
theorem exec_linkStepTo_of_linkFrame {i : Instr} {f : Frame} (h : linkFrame i = some f) (s : State) :
    LinkStepTo s.link (exec i s) :=
  exec_eq_issue_of_linkFrame h s ▸ linkStepTo_next.2 (.write f)

theorem exec_linkStepTo (i : Instr) (s : State) : LinkStepTo s.link (exec i s) := by
  cases i with
  | owReset a => exact execOwReset_linkStepTo a s
  | busyWait a => exact execBusyWait_linkStepTo a s
  | readReg a => exact execReadReg_linkStepTo a s
  | writeByte a => exact execWriteByte_linkStepTo a s
  | readByte a => exact execReadByte_linkStepTo a s
  | triplet a => exact execTriplet_linkStepTo a s
  | devReset a => exact execDevReset_linkStepTo a s
  | cfgWrite a => exact execCfgWrite_linkStepTo a s
  | searchFirst a => exact execSearchFirst_linkStepTo a s
  | searchNext a => exact execSearchNext_linkStepTo a s
  | enumerate a => exact execEnumerate_linkStepTo a s
  | regLookup a => exact execRegLookup_linkStepTo a s
  | regGetall a => exact execRegGetall_linkStepTo a s
  | reserved0 a | reservedE a | reservedF a => exact illegal_linkStepTo s _ a
  | brDeviceReset | brSetReadPointer _ | brConfigWrite _ | brChannelSelect _ | brBusReset | brWriteByte _ | brReadByte
  | brTriplet _ | ptrStatus | ptrData | ptrChannel | ptrConfig | busSearch | busMatchRom =>
    exact exec_linkStepTo_of_linkFrame rfl s

/-- At the top-level points the link side is untouched. -/
theorem rest_link (s : State) : s.rest.link = s.link := by
  unfold State.rest
  split <;> rfl

/-- Every step does at most one thing to the link side (R10, R34). -/
theorem step_linkStep {s t : State} (h : step s = .next t) : s.link.Step t.link := by
  rcases step_cases h with ⟨_, rfl⟩ | ⟨i, _, hi⟩
  · exact (rest_link s).symm ▸ .none
  · exact exec_linkStepTo i s t hi

/-! ### The tick source -/

theorem Ideal.writeByte_t (e : Ideal) (v : Byte) : (e.writeByte v).t = e.t := by
  unfold Ideal.writeByte
  split <;> rfl

/-- No bytes sent to E_IDEAL move its tick source (R82 to R87). -/
theorem Ideal.receive_t (e : Ideal) (f : Frame) : (e.receive f).t = e.t := by
  unfold Ideal.receive
  split
  case h_3 v _ => exact e.writeByte_t v
  all_goals rfl

@[simp] theorem Env.receive_clock (e : Env) (f : Frame) : (e.receive f).clock = e.clock := by
  cases e with
  | oracle o => rfl
  | ideal e => exact e.receive_t f

@[simp] theorem Env.afterRead_clock (e : Env) : e.afterRead.clock = e.clock := by
  cases e <;> rfl

/-- A sample is at least the clock before it (R254). -/
theorem Env.clock_le_sample (e : Env) (trace : List Event) : e.clock ≤ e.sample trace := by
  cases e with
  | oracle o => exact Nat.le_add_right ..
  | ideal e => exact le_rfl

/-- A sample is at most the clock after it (R254). -/
theorem Env.sample_le_clock_afterTick (e : Env) (trace : List Event) :
    e.sample trace ≤ (e.afterTick (e.sample trace)).clock := by
  cases e with
  | oracle o => exact le_rfl
  | ideal e => exact Nat.le_add_right ..

theorem Link.now_le_clock_afterTick (l : Link) : l.now ≤ (l.env.afterTick l.now).clock :=
  l.env.sample_le_clock_afterTick l.trace

theorem Link.clock_le_clock_afterTick (l : Link) : l.env.clock ≤ (l.env.afterTick l.now).clock :=
  (l.env.clock_le_sample l.trace).trans l.now_le_clock_afterTick

theorem Link.Step.clock_le {l l' : Link} (h : l.Step l') : l.env.clock ≤ l'.env.clock := by
  cases h with
  | none => exact le_rfl
  | write f => simp
  | read ptr => simp
  | tick | startPoll => exact l.clock_le_clock_afterTick

/-- `t0` is kept, or is the sample just taken (R32). -/
theorem Link.Step.t0_le_clock {l l' : Link} (h : l.Step l') (ht : l.t0 ≤ l.env.clock) : l'.t0 ≤ l'.env.clock := by
  cases h with
  | startPoll => exact l.now_le_clock_afterTick
  | none => exact ht
  | write f => simpa using ht
  | read ptr => simpa using ht
  | tick => exact ht.trans l.clock_le_clock_afterTick

/-- Settles O51: a step is at most one primitive, and none of the four takes the clock back or `t0` past it. -/
theorem clockNeverGoesBack : Obligations.ClockNeverGoesBack := by
  intro s t h
  exact ⟨(step_linkStep h).clock_le, (step_linkStep h).t0_le_clock⟩

end Sys2Proof.Machine
end

/-! ## Which instruction a step runs

Fetching (R34): in DISPATCH the word in `CW`, at a point that sends a frame its bridge command, elsewhere in an operation that
operation; and sending a frame is what the operation's own pseudocode does there. So a step from a point that is neither
IDLE nor COMPLETE runs an instruction of the host word layer. -/

section
namespace Sys2Proof.Machine

/-! ### The two fields of a host command word -/

@[simp] theorem opField_hostWordOf (k : BitVec 4) (a : Byte) : opField (hostWordOf k a) = k :=
  BitVec.extractLsb'_append_eq_left

@[simp] theorem arg8Field_hostWordOf (k : BitVec 4) (a : Byte) : arg8Field (hostWordOf k a) = a :=
  BitVec.extractLsb'_append_eq_right

/-- Decoding the word of a host operation gives the operation back (R109, R110). -/
theorem decodeHostWord_of_encode {i : Instr} {w : CmdWord} (h : encode i = .hostWord w) : decodeHostWord w = i := by
  cases i <;> cases h <;> simp [decodeHostWord]

theorem hostLevel_decodeHostWord (w : CmdWord) : HostLevel (decodeHostWord w) := by
  unfold HostLevel decodeHostWord
  dsimp only
  split <;> exact ⟨_, rfl⟩

theorem linkFrame_eq_none_of_hostLevel {i : Instr} (h : HostLevel i) : linkFrame i = none := by
  obtain ⟨w, hw⟩ := h
  cases i <;> cases hw <;> rfl

/-! ### The frame of a bridge command -/

theorem linkFrame_of_shortCommand {c : Byte} {i : Instr} (h : shortCommand c = .ok i) : linkFrame i = some ⟨c, none⟩ := by
  unfold shortCommand at h
  split_ifs at h <;> cases h <;> subst c <;> rfl

theorem linkFrame_of_longCommand {c p : Byte} {i : Instr} (h : longCommand c p = .ok i) : linkFrame i = some ⟨c, some p⟩ := by
  unfold longCommand at h
  split_ifs at h <;> cases h <;> subst c <;> rfl

/-- What a frame decodes to sends that frame (R101, R102). -/
theorem linkFrame_of_decodeFrame {f : Frame} {i : Instr} (h : decodeFrame f = .ok i) : linkFrame i = some f := by
  obtain ⟨c, p⟩ := f
  rcases ht : takesParameter c with _ | _ | _
  · simp [decodeFrame, decodeBytes, Frame.bytes, ht] at h
  · rcases hs : shortCommand c with e | j
    · simp [decodeFrame, decodeBytes, Frame.bytes, ht, hs, Except.map] at h
    · cases p <;> simp [decodeFrame, decodeBytes, Frame.bytes, ht, hs, Except.map] at h
      exact h ▸ linkFrame_of_shortCommand hs
  · rcases p with _ | p
    · simp [decodeFrame, decodeBytes, Frame.bytes, ht] at h
    · rcases hs : longCommand c p with e | j <;> simp [decodeFrame, decodeBytes, Frame.bytes, ht, hs, Except.map] at h
      exact h ▸ linkFrame_of_longCommand hs

/-! ### A point that sends a frame -/

theorem readPoint_of_issuing {ptr : Byte} {p : ReadPt} {f : Frame} (h : p.issuing ptr = some f) (l : Link) :
    readPoint ptr p l = (l.write f, .goto p.issued) := by
  cases p <;> cases h
  rfl

theorem pollPoint_of_issuing {c : Cond} {T : Nat} {p : PollPt} {f : Frame} (h : p.issuing = some f) (l : Link) :
    pollPoint c T p l = (l.write f, .goto p.issued) := by
  cases p with
  | pSample r => simp [pollPoint, PollPt.issued, readPoint_of_issuing h]
  | pT0 | pTest | pTime | pOk | pTimeout => cases h

theorem cmdPoint_of_issuing {cmd : Frame} {p : CmdPt} {f : Frame} (h : p.issuing cmd = some f) (l : Link) :
    cmdPoint cmd p l = (l.write f, .goto p.issued) := by
  cases p with
  | cPre q | cPost q => simp [cmdPoint, busyPoint, CmdPt.issued, pollPoint_of_issuing h]
  | cIssue => cases h; rfl
  | cOk | cFail => cases h

theorem resetPoint_of_issuing {p : ResetPt} {f : Frame} (h : p.issuing = some f) (l : Link) :
    resetPoint p l = (l.write f, .goto p.issued) := by
  cases p with
  | brPpd q | brBusy q => simp [resetPoint, busyPoint, ResetPt.issued, pollPoint_of_issuing h]
  | brIssue => cases h; rfl
  | brTrue | brFalse => cases h

theorem searchPoint_of_issuing {p : SearchPt} {s : State} {f : Frame} (h : p.issuing s.ctl.cmd = some f) :
    searchPoint p s = (s.withLink (s.link.write f), .goto p.issued) := by
  cases p with
  | sReset q => simp [searchPoint, SearchPt.issued, resetPoint_of_issuing h]
  | sCmd q | sTrip q => simp [searchPoint, SearchPt.issued, cmdPoint_of_issuing h]
  | sFresh | sLdf | sInit | sDir | sDecode | sAbsent | sZero | sStore | sAdv | sFin | sAllzero | sReg | sFound
    | sFail => cases h

theorem callCmd_of_issuing {s : State} {p : CmdPt} {f : Frame} (h : p.issuing s.ctl.cmd = some f) (o : Op)
    (stay : CmdPt → Fsm) (ok : State → State) :
    s.callCmd o p stay ok = (s.withLink (s.link.write f)).goto (stay p.issued) := by
  simp [State.callCmd, cmdPoint_of_issuing h]

theorem callRead_of_issuing {s : State} {ptr : Byte} {p : ReadPt} {f : Frame} (h : p.issuing ptr = some f)
    (stay : ReadPt → Fsm) (ok : State → State) :
    s.callRead ptr p stay ok = (s.withLink (s.link.write f)).goto (stay p.issued) := by
  simp [State.callRead, readPoint_of_issuing h]

theorem callPoll_of_issuing {s : State} {p : PollPt} {f : Frame} (h : p.issuing = some f) (T : Nat)
    (stay : PollPt → Fsm) (ok timeout : State → State) :
    s.callPoll T p stay ok timeout = (s.withLink (s.link.write f)).goto (stay p.issued) := by
  simp [State.callPoll, pollPoint_of_issuing h]

theorem callSearch_of_issuing {s : State} {p : SearchPt} {f : Frame} (h : p.issuing s.ctl.cmd = some f)
    (stay : SearchPt → Fsm) : s.callSearch p stay = (s.withLink (s.link.write f)).goto (stay p.issued) := by
  simp [State.callSearch, searchPoint_of_issuing h]

theorem State.issue_at {s : State} {p : Fsm} (h : s.ctl.fsm = p) (f : Frame) :
    s.issue f = (s.withLink (s.link.write f)).goto p.issued := by
  rw [← h, State.issue]

/-- At a point that sends a frame, the running operation sends it and moves past the point (R101, R154). -/
theorem exec_running_of_issuing {s : State} {f : Frame} {i : Instr} (hf : s.ctl.issuing = some f)
    (hi : s.ctl.running = some i) : exec i s = .next (s.issue f) := by
  unfold Control.issuing at hf
  unfold Control.running at hi
  cases hs : s.ctl.fsm <;> simp only [hs, reduceCtorEq, Option.some.injEq] at hf hi <;> subst hi <;>
    rw [State.issue_at hs f]
  case owReset p => simp [exec, execOwReset, hs, resetPoint_of_issuing hf, Fsm.issued]
  case busyWait p | readRegWait p => simp [exec, execBusyWait, execReadReg, hs, callPoll_of_issuing hf, Fsm.issued]
  case readReg p | readByteData p | cfgReadBack p =>
    simp [exec, execReadReg, execReadByte, execCfgWrite, hs, callRead_of_issuing hf, Fsm.issued]
  case writeByte p | readByte p | triplet p | devReset p | cfgWrite p =>
    simp [exec, execWriteByte, execReadByte, execTriplet, execDevReset, execCfgWrite, hs, callCmd_of_issuing hf, Fsm.issued]
  case searchFirst p | searchNext p =>
    simp [exec, execSearchFirst, execSearchNext, hs, callSearch_of_issuing hf, Fsm.issued]
  case enumerate p =>
    cases p with
    | eFirst p | eNext p => simp [exec, execEnumerate, hs, searchPoint_of_issuing hf, Fsm.issued, EnumPt.issued]
    | eDone => cases hf

/-! ### Fetching -/

/-- An operation that runs is a host operation. -/
theorem hostLevel_of_running {c : Control} {i : Instr} (h : c.running = some i) : HostLevel i := by
  unfold Control.running at h
  split at h <;> cases h <;> exact ⟨_, rfl⟩

/-- No operation runs at the three top-level points, and one runs at every other point. -/
theorem running_eq_none_iff {c : Control} :
    c.running = none ↔ c.fsm = .idle ∨ c.fsm = .dispatch ∨ c.fsm = .complete := by
  unfold Control.running
  cases c.fsm <;> simp

theorem issuing_eq_none_of_top {c : Control} (h : c.fsm = .idle ∨ c.fsm = .dispatch ∨ c.fsm = .complete) :
    c.issuing = none := by
  unfold Control.issuing
  rcases h with h | h | h <;> rw [h]

theorem fetched_dispatch {s : State} (h : s.ctl.fsm = .dispatch) :
    s.fetched = some (.ok (decodeHostWord s.port.cw)) := by
  simp [State.fetched, h, decode]

theorem fetched_of_ne_dispatch {s : State} (h : s.ctl.fsm ≠ .dispatch) :
    s.fetched = match s.ctl.issuing with
      | some f => some (decode (.bridge f))
      | none => s.ctl.running.map .ok := by
  unfold State.fetched
  split
  · contradiction
  · rfl

theorem fetched_issuing {s : State} {f : Frame} (h : s.ctl.issuing = some f) : s.fetched = some (decode (.bridge f)) := by
  have hd : s.ctl.fsm ≠ .dispatch := fun hd => by simp [issuing_eq_none_of_top (.inr (.inl hd))] at h
  simp [fetched_of_ne_dispatch hd, h]

theorem fetched_running {s : State} {i : Instr} (hf : s.ctl.issuing = none) (hi : s.ctl.running = some i) :
    s.fetched = some (.ok i) := by
  have hd : s.ctl.fsm ≠ .dispatch := fun hd => by simp [running_eq_none_iff.2 (.inr (.inl hd))] at hi
  simp [fetched_of_ne_dispatch hd, hf, hi]

theorem fetched_top {s : State} (h : s.ctl.fsm = .idle ∨ s.ctl.fsm = .complete) : s.fetched = none := by
  have htop : s.ctl.fsm = .idle ∨ s.ctl.fsm = .dispatch ∨ s.ctl.fsm = .complete := h.imp_right .inr
  have hd : s.ctl.fsm ≠ .dispatch := by rcases h with h | h <;> simp [h]
  simp [fetched_of_ne_dispatch hd, issuing_eq_none_of_top htop, running_eq_none_iff.2 htop]

theorem step_of_fetched {s : State} {i : Instr} (h : s.fetched = some (.ok i)) : step s = exec i s := by
  simp [step, h]

theorem step_top {s : State} (h : s.ctl.fsm = .idle ∨ s.ctl.fsm = .complete) : step s = .next s.rest := by
  simp [step, fetched_top h]

/-- Settles O9: the five clauses are the cases of `State.fetched`. -/
theorem stepRunsTheFetchedInstruction : Obligations.StepRunsTheFetchedInstruction :=
  ⟨fun _ _ => step_of_fetched, fun _ => fetched_dispatch, fun _ _ => fetched_issuing, fun _ _ => fetched_running,
    fun _ h => ⟨fetched_top h, step_top h⟩⟩

/-- A machine that has taken up a host word runs it (R34). -/
theorem step_of_dispatching {s : State} {i : Instr} (h : s.Dispatching i) : step s = exec i s := by
  rw [step_of_fetched (fetched_dispatch h.1), decodeHostWord_of_encode h.2]

/-- Everything a step that answers a next state can be: rest at IDLE or COMPLETE, or a host word layer instruction at a
point of its own, the points that send a frame included. -/
theorem step_top_or_exec {s t : State} (h : step s = .next t) :
    ((s.ctl.fsm = .idle ∨ s.ctl.fsm = .complete) ∧ t = s.rest) ∨
    (s.ctl.fsm ≠ .idle ∧ s.ctl.fsm ≠ .complete ∧ ∃ i, HostLevel i ∧ exec i s = .next t) := by
  by_cases htop : s.ctl.fsm = .idle ∨ s.ctl.fsm = .complete
  · rw [step_top htop] at h
    cases h
    exact .inl ⟨htop, rfl⟩
  obtain ⟨hidle, hcomplete⟩ := not_or.1 htop
  refine .inr ⟨hidle, hcomplete, ?_⟩
  by_cases hd : s.ctl.fsm = .dispatch
  · rw [step_of_fetched (fetched_dispatch hd)] at h
    exact ⟨_, hostLevel_decodeHostWord _, h⟩
  obtain ⟨i, hi⟩ : ∃ i, s.ctl.running = some i :=
    Option.ne_none_iff_exists'.1 fun hn => by simpa [hidle, hd, hcomplete] using running_eq_none_iff.1 hn
  refine ⟨i, hostLevel_of_running hi, ?_⟩
  rcases hf : s.ctl.issuing with _ | f
  · rwa [step_of_fetched (fetched_running hf hi)] at h
  · rcases step_cases h with ⟨hn, _⟩ | ⟨j, hj, hexec⟩
    · simp [fetched_issuing hf] at hn
    · have hdec : decodeFrame f = .ok j := by simpa [fetched_issuing hf, decode] using hj
      rw [exec_running_of_issuing hf hi, ← hexec]
      exact (exec_eq_issue_of_linkFrame (linkFrame_of_decodeFrame hdec) s).symm

end Sys2Proof.Machine
end

/-! ## What an instruction does to the block

One relation for all thirty instructions and every program point: which parts of the state the next state takes from where.
The link side is left open here; `Link.Step` and the busy-wait discipline speak of it. -/

section
namespace Sys2Proof.Machine

/-- The result a sub-machine's point goes on with: `P` of the point it goes to, `Q` of what it returns. -/
def Flow.Meets {π ρ : Type} (P : π → Prop) (Q : ρ → Prop) : Flow π ρ → Prop
  | .goto p => P p
  | .done r => Q r

theorem Flow.Meets.within {π ρ π' ρ' : Type} {P : π → Prop} {Q : ρ → Prop} {P' : π' → Prop} {Q' : ρ' → Prop}
    {call : π → π'} {ret : ρ → Flow π' ρ'} {f : Flow π ρ} (h : f.Meets P Q) (hcall : ∀ p, P p → P' (call p))
    (hret : ∀ r, Q r → (ret r).Meets P' Q') : (f.within call ret).Meets P' Q' := by
  cases f with
  | goto p => exact hcall p h
  | done r => exact hret r h

/-- The next state of an outcome, if it has one, satisfies `P`. -/
def Gives (P : State → Prop) (o : Host.Outcome State Fault Refusal) : Prop := ∀ t, o = .next t → P t

@[simp] theorem gives_next {P : State → Prop} {t : State} : Gives P (.next t) ↔ P t := by
  simp [Gives]

theorem gives_refused {P : State → Prop} {r : Refusal} : Gives P (.refused r) := fun _ h => by cases h

/-- The three search operations (R180, R181, R197). -/
def Searches (i : Instr) : Prop := ∃ a, i = .searchFirst a ∨ i = .searchNext a ∨ i = .enumerate a

theorem Searches.hostLevel {i : Instr} (h : Searches i) : HostLevel i := by
  obtain ⟨a, rfl | rfl | rfl⟩ := h <;> exact ⟨_, rfl⟩

/-- Control is in no search step, or at the beginning of one. -/
def Control.OutsideStep (c : Control) : Prop := c.searchPt = none ∨ c.searchPt = some .sFresh

/-- Control is at a point of an operation, or in DISPATCH, and in no search step. -/
structure Control.Working (c : Control) : Prop where
  outside : c.searchPt = none
  ne_idle : c.fsm ≠ .idle
  ne_complete : c.fsm ≠ .complete

theorem working_of_fsm {c : Control} {f : Fsm} (h : c.fsm = f) (hf : ({ c with fsm := f } : Control).Working) :
    c.Working := by
  subst f
  exact hf

theorem searchPt_of_fsm {c : Control} {f : Fsm} {p : Option SearchPt} (h : c.fsm = f)
    (hf : ({ c with fsm := f } : Control).searchPt = p) : c.searchPt = p := by
  subst f
  exact hf

/-- What an operation may write into the host interface registers as it returns (R110). -/
inductive Returned (i : Instr) (p : Port) : Port → Prop
  | code (c : ResCode) : Returned i p { p with resCode := c }
  | byte (hi : ∃ a, i = .busyWait a ∨ i = .readReg a ∨ i = .readByte a ∨ i = .triplet a ∨ i = .cfgWrite a) (c : ResCode)
      (v : Byte) : Returned i p { p with resCode := c, resByte := v }
  | id (hi : ∃ a, i = .searchFirst a ∨ i = .searchNext a) (c : ResCode) (v : RomId) :
      Returned i p { p with resCode := c, resId := v }
  | count (hi : ∃ a, i = .enumerate a ∨ i = .regLookup a ∨ i = .regGetall a) (c : ResCode) (n : BitVec 5) :
      Returned i p { p with resCode := c, resCount := n }

/-- What an instruction can do to the block, its link side left open (R34). -/
inductive Effect (i : Instr) (s : State) : State → Prop
  /-- a request accepted in IDLE -/
  | accepted (hs : s.ctl.fsm = .idle) (w : CmdWord) : Effect i s (s.accept w)
  /-- a frame sent by an instruction below the host word layer -/
  | issued (f : Frame) (hf : linkFrame i = some f) : Effect i s (s.issue f)
  /-- DISPATCH enters an operation; `first()` empties the Search State -/
  | entered (hs : s.ctl.fsm = .dispatch) (x : SearchState) (hx : x = s.search ∨ Searches i ∧ x = s.search.reset)
      (c : Control) (hc : c.OutsideStep) : Effect i s { s with search := x, ctl := c }
  /-- an operation goes on, outside a search step -/
  | moved (hs : s.ctl.Working) (l : Link) (f : Fsm) (hf : ({ s.ctl with fsm := f } : Control).searchPt = none) :
      Effect i s ((s.withLink l).goto f)
  /-- an operation returns, outside a search step -/
  | returned (hs : s.ctl.Working) (hi : HostLevel i) (l : Link) (p : Port) (hp : Returned i s.port p) :
      Effect i s { s with link := l, port := p, ctl := { s.ctl with fsm := .complete } }
  /-- a point of the search step -/
  | searched (p : SearchPt) (hs : s.ctl.searchPt = some p) (hi : Searches i) (q : Port) (f : Fsm)
      (hf : (searchPoint p s).2.Meets (fun p' => ({ s.ctl with fsm := f } : Control).searchPt = some p')
        fun _ => ({ s.ctl with fsm := f } : Control).OutsideStep)
      (hq : q = s.port ∨ f = .complete ∧ Returned i s.port q) :
      Effect i s { (searchPoint p s).1 with port := q, ctl := { (searchPoint p s).1.ctl with fsm := f } }

/-! ### Requests and calls -/

section
variable {i : Instr} {s : State}

theorem request_effect (w : CmdWord) : Gives (Effect i s) (s.request w) := by
  rcases request_cases s w with ⟨hs, h⟩ | ⟨_, h⟩ <;> rw [h]
  · exact gives_next.2 (.accepted hs w)
  · exact gives_refused

theorem Effect.enter (hs : s.ctl.fsm = .dispatch) (c : Control) (hc : c.OutsideStep) : Effect i s { s with ctl := c } :=
  .entered hs s.search (.inl rfl) c hc

theorem callCmd_effect {o : Op} {p : CmdPt} {stay : CmdPt → Fsm} {ok : State → State} (hs : s.ctl.Working)
    (hi : HostLevel i) (hstay : ∀ q, ({ s.ctl with fsm := stay q } : Control).searchPt = none)
    (hok : ∀ l, Effect i s (ok (s.withLink l))) : Effect i s (s.callCmd o p stay ok) := by
  unfold State.callCmd
  split
  · exact .moved hs _ _ (hstay _)
  · exact hok _
  · exact .returned hs hi _ _ (.code _)

theorem callRead_effect {ptr : Byte} {p : ReadPt} {stay : ReadPt → Fsm} {ok : State → State} (hs : s.ctl.Working)
    (hstay : ∀ q, ({ s.ctl with fsm := stay q } : Control).searchPt = none)
    (hok : ∀ l, Effect i s (ok (s.withLink l))) : Effect i s (s.callRead ptr p stay ok) := by
  unfold State.callRead
  split
  · exact .moved hs _ _ (hstay _)
  · exact hok _

theorem callPoll_effect {T : Nat} {p : PollPt} {stay : PollPt → Fsm} {ok timeout : State → State} (hs : s.ctl.Working)
    (hstay : ∀ q, ({ s.ctl with fsm := stay q } : Control).searchPt = none)
    (hok : ∀ l, Effect i s (ok (s.withLink l))) (htimeout : ∀ l, Effect i s (timeout (s.withLink l))) :
    Effect i s (s.callPoll T p stay ok timeout) := by
  unfold State.callPoll
  split
  · exact .moved hs _ _ (hstay _)
  · exact hok _
  · exact htimeout _

theorem searchPoint_port {p : SearchPt} {t : State} {f : Flow SearchPt SearchResult} (h : searchPoint p s = (t, f)) :
    t.port = s.port := by
  simpa [h] using (searchPoint_frame s p).1

/-- A point of the search step that stays in the step. -/
theorem Effect.searchOn {p q : SearchPt} {t : State} {f : Fsm} (h : searchPoint p s = (t, .goto q)) (hi : Searches i)
    (hs : s.ctl.searchPt = some p) (hf : ({ s.ctl with fsm := f } : Control).searchPt = some q) :
    Effect i s (t.goto f) := by
  have hport : t.port = s.port := searchPoint_port h
  have e := Effect.searched (q := t.port) (f := f) p hs hi (by rw [h]; exact hf) (.inl hport)
  rw [h] at e
  exact e

/-- A point of the search step that ends it, the operation going on to another step or to a point of its own. -/
theorem Effect.searchDone {p : SearchPt} {r : SearchResult} {t : State} {f : Fsm} {q : Port}
    (h : searchPoint p s = (t, .done r)) (hi : Searches i) (hs : s.ctl.searchPt = some p)
    (hf : ({ s.ctl with fsm := f } : Control).OutsideStep) (hq : q = s.port ∨ f = .complete ∧ Returned i s.port q) :
    Effect i s { t with port := q, ctl := { t.ctl with fsm := f } } := by
  have e := Effect.searched (q := q) (f := f) p hs hi (by rw [h]; exact hf) hq
  rw [h] at e
  exact e

theorem callSearch_effect {p : SearchPt} {stay : SearchPt → Fsm} (hi : ∃ a, i = .searchFirst a ∨ i = .searchNext a)
    (hs : s.ctl.searchPt = some p) (hstay : ∀ q, ({ s.ctl with fsm := stay q } : Control).searchPt = some q) :
    Effect i s (s.callSearch p stay) := by
  have hsearch : Searches i := hi.imp fun a h => h.imp_right .inl
  unfold State.callSearch
  split
  · next h => exact .searchOn h hsearch hs (hstay _)
  · next t r h =>
    have hport : t.port = s.port := searchPoint_port h
    cases r with
    | found id => exact .searchDone (t := t) h hsearch hs (.inl rfl) (.inr ⟨rfl, hport ▸ .id hi _ _⟩)
    | exhausted => exact .searchDone (t := t) h hsearch hs (.inl rfl) (.inr ⟨rfl, hport ▸ .code _⟩)

/-! ### The operations -/

variable (a : Byte)

theorem execOwReset_effect : Gives (Effect (.owReset a) s) (execOwReset a s) := by
  unfold execOwReset
  split
  · next h => exact gives_next.2 (.enter h _ (.inl rfl))
  · next p h =>
    have hs : s.ctl.Working := working_of_fsm h ⟨rfl, nofun, nofun⟩
    split
    · exact gives_next.2 (.moved hs _ _ rfl)
    · exact gives_next.2 (.returned hs ⟨_, rfl⟩ _ _ (.code _))
    · exact gives_next.2 (.returned hs ⟨_, rfl⟩ _ _ (.code _))
  · exact request_effect _

theorem execBusyWait_effect : Gives (Effect (.busyWait a) s) (execBusyWait a s) := by
  unfold execBusyWait
  split
  · next h => exact gives_next.2 (.enter h _ (.inl rfl))
  · next p h =>
    have hs : s.ctl.Working := working_of_fsm h ⟨rfl, nofun, nofun⟩
    have hend (l : Link) (c : ResCode) := Effect.returned hs ⟨_, rfl⟩ l _ (.byte ⟨a, .inl rfl⟩ c l.snap)
    exact gives_next.2 (callPoll_effect hs (fun _ => rfl) (hend · _) (hend · _))
  · exact request_effect _

theorem execReadReg_effect : Gives (Effect (.readReg a) s) (execReadReg a s) := by
  unfold execReadReg
  split
  · next h => exact gives_next.2 (.enter h _ (.inl (by unfold Control.searchPt; split_ifs <;> rfl)))
  · next p h =>
    have hs : s.ctl.Working := working_of_fsm h ⟨rfl, nofun, nofun⟩
    exact gives_next.2 (callPoll_effect hs (fun _ => rfl) (fun l => .moved hs l _ rfl)
      fun l => .returned hs ⟨_, rfl⟩ l _ (.code _))
  · next p h =>
    have hs : s.ctl.Working := working_of_fsm h ⟨rfl, nofun, nofun⟩
    exact gives_next.2 (callRead_effect hs (fun _ => rfl)
      fun l => .returned hs ⟨_, rfl⟩ l _ (.byte ⟨a, .inr (.inl rfl)⟩ _ l.rd))
  · exact request_effect _

theorem execWriteByte_effect : Gives (Effect (.writeByte a) s) (execWriteByte a s) := by
  unfold execWriteByte
  split
  · next h => exact gives_next.2 (.enter h _ (.inl rfl))
  · next p h =>
    have hs : s.ctl.Working := working_of_fsm h ⟨rfl, nofun, nofun⟩
    exact gives_next.2 (callCmd_effect hs ⟨_, rfl⟩ (fun _ => rfl) fun l => .returned hs ⟨_, rfl⟩ l _ (.code _))
  · exact request_effect _

theorem execReadByte_effect : Gives (Effect (.readByte a) s) (execReadByte a s) := by
  unfold execReadByte
  split
  · next h => exact gives_next.2 (.enter h _ (.inl rfl))
  · next p h =>
    have hs : s.ctl.Working := working_of_fsm h ⟨rfl, nofun, nofun⟩
    exact gives_next.2 (callCmd_effect hs ⟨_, rfl⟩ (fun _ => rfl) fun l => .moved hs l _ rfl)
  · next p h =>
    have hs : s.ctl.Working := working_of_fsm h ⟨rfl, nofun, nofun⟩
    exact gives_next.2 (callRead_effect hs (fun _ => rfl)
      fun l => .returned hs ⟨_, rfl⟩ l _ (.byte ⟨a, .inr (.inr (.inl rfl))⟩ _ l.rd))
  · exact request_effect _

theorem execTriplet_effect : Gives (Effect (.triplet a) s) (execTriplet a s) := by
  unfold execTriplet
  split
  · next h => exact gives_next.2 (.enter h _ (.inl rfl))
  · next p h =>
    have hs : s.ctl.Working := working_of_fsm h ⟨rfl, nofun, nofun⟩
    exact gives_next.2 (callCmd_effect hs ⟨_, rfl⟩ (fun _ => rfl)
      fun l => .returned hs ⟨_, rfl⟩ l _ (.byte ⟨a, .inr (.inr (.inr (.inl rfl)))⟩ _ l.snap))
  · exact request_effect _

theorem execDevReset_effect : Gives (Effect (.devReset a) s) (execDevReset a s) := by
  unfold execDevReset
  split
  · next h => exact gives_next.2 (.enter h _ (.inl rfl))
  · next p h =>
    have hs : s.ctl.Working := working_of_fsm h ⟨rfl, nofun, nofun⟩
    exact gives_next.2 (callCmd_effect hs ⟨_, rfl⟩ (fun _ => rfl) fun l => .returned hs ⟨_, rfl⟩ l _ (.code _))
  · exact request_effect _

theorem execCfgWrite_effect : Gives (Effect (.cfgWrite a) s) (execCfgWrite a s) := by
  unfold execCfgWrite
  split
  · next h => exact gives_next.2 (.enter h _ (.inl rfl))
  · next p h =>
    have hs : s.ctl.Working := working_of_fsm h ⟨rfl, nofun, nofun⟩
    exact gives_next.2 (callCmd_effect hs ⟨_, rfl⟩ (fun _ => rfl) fun l => .moved hs l _ rfl)
  · next p h =>
    have hs : s.ctl.Working := working_of_fsm h ⟨rfl, nofun, nofun⟩
    exact gives_next.2 (callRead_effect hs (fun _ => rfl) fun l => .moved hs l _ rfl)
  · next h =>
    have hs : s.ctl.Working := working_of_fsm h ⟨rfl, nofun, nofun⟩
    have hend (c : ResCode) := Effect.returned hs ⟨_, rfl⟩ s.link _ (.byte ⟨a, .inr (.inr (.inr (.inr rfl)))⟩ c s.link.rd)
    split <;> exact gives_next.2 (hend _)
  · exact request_effect _

theorem execSearchFirst_effect : Gives (Effect (.searchFirst a) s) (execSearchFirst a s) := by
  unfold execSearchFirst
  split
  · next h => exact gives_next.2 (.entered h _ (.inr ⟨⟨a, .inl rfl⟩, rfl⟩) _ (.inr rfl))
  · next p h => exact gives_next.2 (callSearch_effect ⟨a, .inl rfl⟩ (searchPt_of_fsm h rfl) fun _ => rfl)
  · exact request_effect _

theorem execSearchNext_effect : Gives (Effect (.searchNext a) s) (execSearchNext a s) := by
  unfold execSearchNext
  split
  · next h => exact gives_next.2 (.enter h _ (.inr rfl))
  · next p h => exact gives_next.2 (callSearch_effect ⟨a, .inr rfl⟩ (searchPt_of_fsm h rfl) fun _ => rfl)
  · exact request_effect _

/-- After a search step the enumeration is at the beginning of the next one, or at its end (R197). -/
theorem outsideStep_enumAfter (c : Control) (r : SearchResult) :
    ({ c with fsm := .enumerate (enumAfter r) } : Control).OutsideStep := by
  cases r with
  | found id => exact .inr rfl
  | exhausted => exact .inl rfl

theorem execEnumerate_effect : Gives (Effect (.enumerate a) s) (execEnumerate a s) := by
  have hi : Searches (.enumerate a) := ⟨a, .inr (.inr rfl)⟩
  unfold execEnumerate
  split
  · next h => exact gives_next.2 (.entered h _ (.inr ⟨hi, rfl⟩) _ (.inr rfl))
  case h_2 p h | h_3 p h =>
    have hs : s.ctl.searchPt = some p := searchPt_of_fsm h rfl
    split
    · next hp => exact gives_next.2 (.searchOn hp hi hs rfl)
    · next t r hp =>
      have hport : t.port = s.port := searchPoint_port hp
      exact gives_next.2 (.searchDone hp hi hs (outsideStep_enumAfter _ r) (.inl hport))
  · next h =>
    have hs : s.ctl.Working := working_of_fsm h ⟨rfl, nofun, nofun⟩
    exact gives_next.2 (.returned hs ⟨_, rfl⟩ s.link _ (.count ⟨a, .inl rfl⟩ _ _))
  · exact request_effect _

theorem execRegLookup_effect : Gives (Effect (.regLookup a) s) (execRegLookup a s) := by
  unfold execRegLookup
  split
  · next h => exact gives_next.2 (.enter h _ (.inl rfl))
  · next h =>
    have hs : s.ctl.Working := working_of_fsm h ⟨rfl, nofun, nofun⟩
    split
    · exact gives_next.2 (.returned hs ⟨_, rfl⟩ s.link _ (.count ⟨a, .inr (.inl rfl)⟩ _ _))
    · exact gives_next.2 (.moved hs s.link _ rfl)
  · next h =>
    have hs : s.ctl.Working := working_of_fsm h ⟨rfl, nofun, nofun⟩
    exact gives_next.2 (.returned hs ⟨_, rfl⟩ s.link _ (.code _))
  · exact request_effect _

theorem execRegGetall_effect : Gives (Effect (.regGetall a) s) (execRegGetall a s) := by
  unfold execRegGetall
  split
  · next h => exact gives_next.2 (.enter h _ (.inl rfl))
  · next h =>
    have hs : s.ctl.Working := working_of_fsm h ⟨rfl, nofun, nofun⟩
    exact gives_next.2 (.moved hs s.link _ rfl)
  · next h =>
    have hs : s.ctl.Working := working_of_fsm h ⟨rfl, nofun, nofun⟩
    exact gives_next.2 (.returned hs ⟨_, rfl⟩ s.link _ (.count ⟨a, .inr (.inr rfl)⟩ _ _))
  · exact request_effect _

theorem illegal_effect (hi : HostLevel i) (op : BitVec 4) : Gives (Effect i s) (s.illegal op a) := by
  unfold State.illegal
  split
  · next h =>
    have hs : s.ctl.Working := working_of_fsm h ⟨rfl, nofun, nofun⟩
    exact gives_next.2 (.returned hs hi s.link _ (.code _))
  · exact request_effect _

end

/-- Everything an instruction that answers a next state can do to the block. -/
theorem exec_effect {i : Instr} {s t : State} (h : exec i s = .next t) : Effect i s t := by
  rcases hf : linkFrame i with _ | f
  · cases i with
    | owReset a => exact execOwReset_effect a t h
    | busyWait a => exact execBusyWait_effect a t h
    | readReg a => exact execReadReg_effect a t h
    | writeByte a => exact execWriteByte_effect a t h
    | readByte a => exact execReadByte_effect a t h
    | triplet a => exact execTriplet_effect a t h
    | devReset a => exact execDevReset_effect a t h
    | cfgWrite a => exact execCfgWrite_effect a t h
    | searchFirst a => exact execSearchFirst_effect a t h
    | searchNext a => exact execSearchNext_effect a t h
    | enumerate a => exact execEnumerate_effect a t h
    | regLookup a => exact execRegLookup_effect a t h
    | regGetall a => exact execRegGetall_effect a t h
    | reserved0 a | reservedE a | reservedF a => exact illegal_effect a ⟨_, rfl⟩ _ t h
    | brDeviceReset | brSetReadPointer _ | brConfigWrite _ | brChannelSelect _ | brBusReset | brWriteByte _ | brReadByte
    | brTriplet _ | ptrStatus | ptrData | ptrChannel | ptrConfig | busSearch | busMatchRom => cases hf
  · rw [exec_eq_issue_of_linkFrame hf] at h
    cases h
    exact .issued f hf

end Sys2Proof.Machine
end

/-! ## Who writes what

The frame rules over all instructions: the trace (R71), the host interface registers (R110), the search's own state (R39). -/

section
namespace Sys2Proof.Machine

/-- A primitive is one event, no primitive none (R10). -/
theorem Link.Step.trace {l l' : Link} (h : l.Step l') : l'.trace = l.trace ∨ ∃ e, l'.trace = e :: l.trace := by
  cases h with
  | none => exact .inl rfl
  | write f => exact .inr ⟨_, rfl⟩
  | read ptr => exact .inr ⟨_, rfl⟩
  | tick => exact .inr ⟨_, rfl⟩
  | startPoll => exact .inr ⟨_, rfl⟩

/-- Settles O52: a step is at most one primitive, and a primitive is one event. -/
theorem atMostOneEventPerStep : Obligations.AtMostOneEventPerStep := fun _ _ h => (step_linkStep h).trace

/-! ### The host interface registers -/

/-- What an instruction does to the host interface registers: nothing, the write of `CW` of an accepted request, or the results
of an operation that returns (R34, R35). -/
theorem Effect.port {i : Instr} {s t : State} (h : Effect i s t) :
    t.port = s.port ∨ (s.ctl.fsm = .idle ∧ ∃ w, t.port = { s.port with cw := w }) ∨
    (s.ctl.fsm ≠ .idle ∧ s.ctl.fsm ≠ .complete ∧ t.ctl.fsm = .complete ∧ HostLevel i ∧ Returned i s.port t.port) := by
  cases h with
  | accepted hs w => exact .inr (.inl ⟨hs, w, rfl⟩)
  | issued f hf | entered hs x hx c hc | moved hs l f hf => exact .inl rfl
  | returned hs hi l p hp => exact .inr (.inr ⟨hs.ne_idle, hs.ne_complete, rfl, hi, hp⟩)
  | searched p hs hi q f hf hq =>
    rcases hq with hq | ⟨rfl, hq⟩
    · exact .inl hq
    · refine .inr (.inr ⟨?_, ?_, rfl, hi.hostLevel, hq⟩) <;> intro hfsm <;> simp [Control.searchPt, hfsm] at hs

/-- Which registers an operation that returns can have written (R110). -/
theorem Returned.writers {i : Instr} {p q : Port} (h : Returned i p q) :
    (q.resByte = p.resByte ∨
      ∃ a, i = .busyWait a ∨ i = .readReg a ∨ i = .readByte a ∨ i = .triplet a ∨ i = .cfgWrite a) ∧
    (q.resId = p.resId ∨ ∃ a, i = .searchFirst a ∨ i = .searchNext a) ∧
    (q.resCount = p.resCount ∨ ∃ a, i = .enumerate a ∨ i = .regLookup a ∨ i = .regGetall a) ∧
    q.argId = p.argId ∧ q.cw = p.cw := by
  cases h with
  | code c => exact ⟨.inl rfl, .inl rfl, .inl rfl, rfl, rfl⟩
  | byte hi c v => exact ⟨.inr hi, .inl rfl, .inl rfl, rfl, rfl⟩
  | id hi c v => exact ⟨.inl rfl, .inr hi, .inl rfl, rfl, rfl⟩
  | count hi c n => exact ⟨.inl rfl, .inl rfl, .inr hi, rfl, rfl⟩

/-- The four result registers are the same. -/
def Port.SameResults (p q : Port) : Prop :=
  q.resCode = p.resCode ∧ q.resByte = p.resByte ∧ q.resId = p.resId ∧ q.resCount = p.resCount

/-- At the top-level points no result register is written (R35). -/
theorem rest_sameResults (s : State) : s.port.SameResults s.rest.port := by
  unfold State.rest
  split <;> exact ⟨rfl, rfl, rfl, rfl⟩

/-- An instruction keeps the result registers but for an operation that returns and enters COMPLETE. -/
theorem Effect.sameResults_or_completes {i : Instr} {s t : State} (h : Effect i s t) :
    s.port.SameResults t.port ∨ (s.ctl.fsm ≠ .idle ∧ s.ctl.fsm ≠ .complete ∧ t.ctl.fsm = .complete) := by
  rcases h.port with hp | ⟨_, w, hp⟩ | ⟨hidle, hcomplete, ht, _⟩
  · exact .inl (hp ▸ ⟨rfl, rfl, rfl, rfl⟩)
  · exact .inl (hp ▸ ⟨rfl, rfl, rfl, rfl⟩)
  · exact .inr ⟨hidle, hcomplete, ht⟩

/-- Settles O53: an instruction writes the result registers only as an operation returns, and then those that name it. -/
theorem resultRegistersHaveTheirWriters : Obligations.ResultRegistersHaveTheirWriters := by
  constructor
  · intro i s t h
    rcases (exec_effect h).port with hp | ⟨hs, w, hp⟩ | ⟨_, _, _, hi, hp⟩
    · simp [hp]
    · simp [hp, hs]
    · obtain ⟨hbyte, hid, hcount, harg, hcw⟩ := hp.writers
      exact ⟨.inr hi, hbyte, hid, hcount, harg, .inl hcw⟩
  · intro s t h
    rcases step_top_or_exec h with ⟨_, rfl⟩ | ⟨_, _, i, _, hi⟩
    · exact .inl (rest_sameResults s)
    · exact (exec_effect hi).sameResults_or_completes

/-! ### Search State, walk temporaries and registry -/

theorem beginStep_search (s : State) : s.beginStep.search = s.search := by
  unfold State.beginStep
  split <;> rfl

theorem trackZero_registry (s : State) : s.trackZero.registry = s.registry := by
  unfold State.trackZero
  split <;> rfl

theorem trackZero_lastDeviceFlag (s : State) : s.trackZero.search.lastDeviceFlag = s.search.lastDeviceFlag := by
  unfold State.trackZero
  split
  · dsimp only
    split <;> rfl
  · rfl

/-- The search step's calls leave its own state alone: what changes is the link side and the command latch. -/
theorem searchPoint_sReset_store (q : ResetPt) (s : State) :
    (searchPoint (.sReset q) s).1.search = s.search ∧ (searchPoint (.sReset q) s).1.walk = s.walk ∧
      (searchPoint (.sReset q) s).1.registry = s.registry := by
  rcases hq : resetPoint q s.link with ⟨l, q' | _ | _⟩ <;> simp [searchPoint, hq]

/-- Only `S_FRESH` and `S_REG` change the registry (R225). -/
theorem searchPoint_registry {p : SearchPt} (hfresh : p ≠ .sFresh) (hreg : p ≠ .sReg) (s : State) :
    (searchPoint p s).1.registry = s.registry := by
  cases p with
  | sFresh | sReg => contradiction
  | sReset q => exact (searchPoint_sReset_store q s).2.2
  | sZero => exact trackZero_registry s
  | sLdf | sCmd q | sInit | sDir | sTrip q | sDecode | sAbsent | sStore | sAdv | sFin | sAllzero | sFound | sFail => rfl

/-- Only `S_FIN` sets `LastDeviceFlag`, and only with `last_zero` 0 (R193). -/
theorem searchPoint_lastDeviceFlag {p : SearchPt} {s : State} (hs : s.search.lastDeviceFlag = false)
    (ht : (searchPoint p s).1.search.lastDeviceFlag = true) : p = .sFin ∧ s.walk.lastZero = 0 := by
  cases p with
  | sFin => exact ⟨rfl, by simpa [searchPoint, hs] using ht⟩
  | sFresh => simp [searchPoint, beginStep_search, hs] at ht
  | sReset q => simp [searchPoint_sReset_store, hs] at ht
  | sZero => simp [searchPoint, trackZero_lastDeviceFlag, hs] at ht
  | sFail => simp [searchPoint, SearchState.reset] at ht
  | sLdf | sCmd q | sInit | sDir | sTrip q | sDecode | sAbsent | sStore | sAdv | sAllzero | sReg | sFound =>
    simp [searchPoint, hs] at ht

/-- Settles O54: outside the search step nothing of the search's state changes but that `first()` empties the Search State;
inside it the registry changes at two points and the flag is set at one. -/
theorem onlyTheSearchWritesItsState : Obligations.OnlyTheSearchWritesItsState := by
  intro i s t h
  have hkept : s.search.lastDeviceFlag = false → s.search.lastDeviceFlag = true →
      s.ctl.searchPt = some .sFin ∧ s.walk.lastZero = 0 := fun h0 h1 => by simp [h0] at h1
  cases exec_effect h with
  | accepted hs w | issued f hf | moved hs l f hf | returned hs hi l p hp =>
    exact ⟨.inr ⟨rfl, rfl, rfl⟩, .inl rfl, hkept⟩
  | entered hs x hx c hc =>
    rcases hx with rfl | ⟨hi, rfl⟩
    · exact ⟨.inr ⟨rfl, rfl, rfl⟩, .inl rfl, hkept⟩
    · exact ⟨.inl hi, .inl rfl, fun _ h1 => by simp [SearchState.reset] at h1⟩
  | searched p hs hi q f hf hq =>
    refine ⟨.inl hi, ?_, fun h0 h1 => ?_⟩
    · by_cases hfresh : p = .sFresh
      · exact .inr (.inl (hfresh ▸ hs))
      by_cases hreg : p = .sReg
      · exact .inr (.inr (hreg ▸ hs))
      exact .inl (searchPoint_registry hfresh hreg s)
    · obtain ⟨rfl, hz⟩ := searchPoint_lastDeviceFlag h0 h1
      exact ⟨hs, hz⟩

end Sys2Proof.Machine
end

/-! ## The invariants of the registry and of the search

Each is a predicate of the search step's point, of the search's own state and of nothing else, so the search step's points
are the only ones with anything to prove. -/

section
namespace Sys2Proof.Machine

/-! ### What every step does to the search's own state -/

/-- What a step does to Search State, walk temporaries and registry, and to the search step's point. -/
inductive StoreStep (s t : State) : Prop
  /-- nothing, outside a search step -/
  | kept (hs : s.ctl.searchPt = none) (ht : t.ctl.OutsideStep) (hx : t.search = s.search) (hw : t.walk = s.walk)
      (hr : t.registry = s.registry)
  /-- `first()` empties the Search State -/
  | emptied (ht : t.ctl.OutsideStep) (hx : t.search = s.search.reset) (hr : t.registry = s.registry)
  /-- a point of the search step -/
  | searched (p : SearchPt) (hs : s.ctl.searchPt = some p)
      (ht : (searchPoint p s).2.Meets (fun p' => t.ctl.searchPt = some p') fun _ => t.ctl.OutsideStep)
      (hx : t.search = (searchPoint p s).1.search) (hw : t.walk = (searchPoint p s).1.walk)
      (hr : t.registry = (searchPoint p s).1.registry)

theorem searchPt_top {c : Control} (h : c.fsm = .idle ∨ c.fsm = .dispatch ∨ c.fsm = .complete) : c.searchPt = none := by
  unfold Control.searchPt
  rcases h with h | h | h <;> rw [h]

theorem rest_storeStep {s : State} (h : s.ctl.fsm = .idle ∨ s.ctl.fsm = .complete) : StoreStep s s.rest := by
  have hs : s.ctl.searchPt = none := searchPt_top (h.imp_right .inr)
  unfold State.rest
  split
  · exact .kept hs (.inl rfl) rfl rfl rfl
  · exact .kept hs (.inl hs) rfl rfl rfl
  · exact .kept hs (.inl hs) rfl rfl rfl
  · exact .kept hs (.inl rfl) rfl rfl rfl

theorem Effect.storeStep {i : Instr} {s t : State} (hi : HostLevel i) (h : Effect i s t) : StoreStep s t := by
  cases h with
  | accepted hs w => exact .kept (searchPt_top (.inl hs)) (.inl rfl) rfl rfl rfl
  | issued f hf => simp [linkFrame_eq_none_of_hostLevel hi] at hf
  | entered hs x hx c hc =>
    rcases hx with rfl | ⟨_, rfl⟩
    · exact .kept (searchPt_top (.inr (.inl hs))) hc rfl rfl rfl
    · exact .emptied hc rfl rfl
  | moved hs l f hf => exact .kept hs.outside (.inl hf) rfl rfl rfl
  | returned hs hi l p hp => exact .kept hs.outside (.inl rfl) rfl rfl rfl
  | searched p hs hi q f hf hq => exact .searched p hs hf rfl rfl rfl

theorem step_storeStep {s t : State} (h : step s = .next t) : StoreStep s t := by
  rcases step_top_or_exec h with ⟨htop, rfl⟩ | ⟨_, _, i, hi, hexec⟩
  · exact rest_storeStep htop
  · exact (exec_effect hexec).storeStep hi

/-! ### Identifiers -/

/-- Bit `j` of byte `i` of the buffer is bit `8 * i + j` of the integer (R66). -/
theorem romToId_getLsbD (r : Rom) {i j : Nat} (hi : i < 8) (hj : j < 8) :
    (romToId r).getLsbD (8 * i + j) = r[i].getLsbD j := by
  unfold romToId
  interval_cases i <;> rw [BitVec.getLsbD_append] <;> grind

/-- The all-zero test is over all 64 bits (R194). -/
theorem allZero_of_romToId_eq_zero {x : SearchState} (h : romToId x.rom = 0) : x.allZero = true := by
  have hbyte (i : Nat) (hi : i < 8) : x.rom[i] = 0 := by
    refine BitVec.eq_of_getLsbD_eq fun j hj => ?_
    rw [← romToId_getLsbD x.rom hi hj, h]
    simp
  unfold SearchState.allZero
  rw [List.all_eq_true]
  intro b hb
  obtain ⟨i, hi, rfl⟩ := Vector.getElem_of_mem (Vector.mem_toList_iff.1 hb)
  simp [hbyte i hi]

/-! ### The registry in canonical form (R29) -/

theorem Registry.clear_wf (r : Registry) : r.clear.wf :=
  ⟨Nat.zero_le _, fun i h => absurd h (Nat.not_lt_zero i), fun i _ => r.clear_slot i⟩

theorem Registry.append_of_full {r : Registry} (h : Config.regN ≤ r.count.toNat) (id : RomId) : r.append id = r :=
  if_neg (Nat.not_lt.2 h)

theorem Registry.append_count {r : Registry} (h : r.count.toNat < Config.regN) (id : RomId) :
    (r.append id).count.toNat = r.count.toNat + 1 := by
  have : Config.regN = 16 := rfl
  simp only [Registry.append, h, if_true, BitVec.toNat_add]
  simp
  omega

theorem Registry.append_slot {r : Registry} (h : r.count.toNat < Config.regN) (id : RomId) (i : Nat) :
    (r.append id).slot i = if i = r.count.toNat then id else r.slot i := by
  simp only [Registry.append, h, if_true, Registry.slot, Vector.getElem?_setIfInBounds]
  by_cases hi : r.count.toNat = i
  · have : i < 16 := hi ▸ h
    simp [hi, this]
  · simp [hi, Ne.symm hi]

/-- An append of a non-zero identifier keeps the canonical form (R220). -/
theorem Registry.append_wf {r : Registry} (hr : r.wf) {id : RomId} (hid : id ≠ 0) : (r.append id).wf := by
  obtain ⟨hcount, hused, hfree⟩ := hr
  rcases hcount.lt_or_eq with hlt | hfull
  · refine ⟨?_, fun i hi => ?_, fun i hi => ?_⟩ <;> rw [Registry.append_count hlt] at *
    · exact hlt
    · rw [Registry.append_slot hlt]
      split
      · exact hid
      · exact hused i (by omega)
    · rw [Registry.append_slot hlt, if_neg (by omega)]
      exact hfree i (by omega)
  · rw [Registry.append_of_full hfull.ge]
    exact ⟨hcount, hused, hfree⟩

/-- `State.RegistryOk` of a search step's point, a buffer and a registry. -/
def RegistryOkAt (p : Option SearchPt) (x : SearchState) (r : Registry) : Prop :=
  r.wf ∧ (p = some .sReg → romToId x.rom ≠ 0)

theorem registryOk_iff (s : State) : s.RegistryOk ↔ RegistryOkAt s.ctl.searchPt s.search s.registry := Iff.rfl

/-- Outside a search step and at its beginning there is nothing to register. -/
theorem Control.OutsideStep.registryOkAt {c : Control} (h : c.OutsideStep) {r : Registry} (hr : r.wf) (x : SearchState) :
    RegistryOkAt c.searchPt x r :=
  ⟨hr, by rcases h with h | h <;> simp [h]⟩

theorem beginStep_wf {s : State} (h : s.registry.wf) : s.beginStep.registry.wf := by
  unfold State.beginStep
  split
  · exact s.registry.clear_wf
  · exact h

/-- A point of the search step keeps the canonical form, given that an identifier to be registered is not zero. -/
theorem searchPoint_wf {p : SearchPt} {s : State} (h : RegistryOkAt (some p) s.search s.registry) :
    (searchPoint p s).1.registry.wf := by
  obtain ⟨hwf, hid⟩ := h
  by_cases hfresh : p = .sFresh
  · subst p
    exact beginStep_wf hwf
  by_cases hreg : p = .sReg
  · subst p
    exact Registry.append_wf hwf (hid rfl)
  · rw [searchPoint_registry hfresh hreg]
    exact hwf

/-- Only `S_ALLZERO` leads to registration, and only with an identifier that is not zero (R194). -/
theorem searchPoint_toReg (p : SearchPt) (s : State) :
    (searchPoint p s).2.Meets (fun q => q = .sReg → romToId (searchPoint p s).1.search.rom ≠ 0) fun _ => True := by
  cases p with
  | sAllzero =>
    intro hq h0
    have hall : s.search.allZero = true := allZero_of_romToId_eq_zero h0
    simp [hall] at hq
  | sReset q => rcases hq : resetPoint q s.link with ⟨l, q' | _ | _⟩ <;> simp [searchPoint, hq, Flow.Meets]
  | sCmd q | sTrip q => rcases hq : cmdPoint s.ctl.cmd q s.link with ⟨l, q' | _ | _⟩ <;> simp [searchPoint, hq, Flow.Meets]
  | sLdf | sAbsent | sAdv => intro hq; split at hq <;> cases hq
  | sFresh | sInit | sDir | sDecode | sZero | sStore | sFin | sReg => exact nofun
  | sFound | sFail => trivial

/-- Settles O47: the registry is cleared, appended to with a non-zero identifier, or left. -/
theorem registryStaysCanonical : Obligations.RegistryStaysCanonical := by
  intro s t hs h
  rw [registryOk_iff] at *
  cases step_storeStep h with
  | kept hout ht hx hw hr => exact ht.registryOkAt (hr ▸ hs.1) _
  | emptied ht hx hr => exact ht.registryOkAt (hr ▸ hs.1) _
  | searched p hp ht hx hw hr =>
    have hwf : t.registry.wf := hr ▸ searchPoint_wf (hp ▸ hs)
    have hreg := searchPoint_toReg p s
    rcases hf : (searchPoint p s).2 with q | r <;> rw [hf] at ht hreg
    · exact ⟨hwf, fun hq => hx ▸ hreg (by simpa [hq] using ht.symm)⟩
    · exact Control.OutsideStep.registryOkAt ht hwf _

end Sys2Proof.Machine
end

/-! ## The Search State and the walk temporaries (R22 to R26) -/

section
namespace Sys2Proof.Machine

/-! ### The walk -/

/-- The walk begins at position 1 (R186). -/
theorem Walk.init_coherent (w : Walk) : w.init.Coherent := by
  refine ⟨?_, ?_, ?_, ?_⟩ <;> simp [Walk.init, byteIdxOf, maskOf]

/-- The mask of a bit, moved on, is the mask of the next bit, and 0 past bit 7. -/
theorem maskOf_shiftLeft {n : Nat} (hn : 1 ≤ n) :
    maskOf n <<< 1 = if n % 8 = 0 then 0 else maskOf (n + 1) := by
  have key : ∀ k : Nat, k < 8 → (1#8 <<< k) <<< 1 = if k = 7 then 0#8 else 1#8 <<< (k + 1) := by decide
  rw [maskOf, key _ (Nat.mod_lt _ (by decide)), maskOf]
  by_cases h : n % 8 = 0
  · rw [if_pos h, if_pos (by omega)]
    rfl
  · rw [if_neg h, if_neg (by omega), show (n - 1) % 8 + 1 = (n + 1 - 1) % 8 by omega]

theorem maskOf_ne_zero (n : Nat) : maskOf n ≠ 0 := by
  have key : ∀ k : Nat, k < 8 → 1#8 <<< k ≠ 0 := by decide
  exact key _ (Nat.mod_lt _ (by decide))

/-- An advance of a coherent walk (R192): the byte index moves on at every eighth position. -/
theorem Walk.advance_of_coherent {w : Walk} (h : w.Coherent) :
    w.advance.n.toNat = w.n.toNat + 1 ∧ w.advance.lastZero = w.lastZero ∧ w.advance.byteIdx.toNat = w.n.toNat / 8 ∧
      w.advance.mask = maskOf (w.n.toNat + 1) := by
  obtain ⟨h1, h64, hidx, hmask⟩ := h
  have hn : (w.n + 1).toNat = w.n.toNat + 1 := by
    rw [BitVec.toNat_add]
    exact Nat.mod_eq_of_lt (by simp; omega)
  simp only [byteIdxOf] at hidx
  unfold Walk.advance
  rw [hmask, maskOf_shiftLeft h1]
  by_cases h8 : w.n.toNat % 8 = 0
  · have hb : (w.byteIdx + 1).toNat = w.byteIdx.toNat + 1 := by
      rw [BitVec.toNat_add]
      exact Nat.mod_eq_of_lt (by simp; omega)
    have hm : maskOf (w.n.toNat + 1) = 1 := by simp [maskOf, h8]
    rw [if_pos h8, if_pos rfl, hm]
    exact ⟨hn, rfl, show (w.byteIdx + 1).toNat = _ by omega, rfl⟩
  · rw [if_neg h8, if_neg (maskOf_ne_zero _)]
    exact ⟨hn, rfl, show w.byteIdx.toNat = _ by omega, rfl⟩

/-- The walk goes on before position 64 and ends past it. -/
theorem Walk.more_advance_iff {w : Walk} (h : w.Coherent) : w.advance.more = true ↔ w.n.toNat < 64 := by
  obtain ⟨_, _, hidx, _⟩ := Walk.advance_of_coherent h
  simp only [Walk.more, decide_eq_true_eq, BitVec.lt_def, hidx]
  simp
  omega

theorem Walk.advance_coherent {w : Walk} (h : w.Coherent) (h64 : w.n.toNat < 64) : w.advance.Coherent := by
  obtain ⟨hn, _, hidx, hmask⟩ := Walk.advance_of_coherent h
  refine ⟨by omega, by omega, ?_, ?_⟩
  · rw [hidx, hn, byteIdxOf, Nat.add_sub_cancel]
  · rw [hmask, hn]

/-! ### What holds at a point -/

/-- A Search State that may stand between two operations (R22, R23, R25). -/
def SearchState.Legal (x : SearchState) : Prop :=
  x.lastDiscrepancy.toNat ≤ 64 ∧ x.lastFamilyDiscrepancy.toNat ≤ 8 ∧ x.Between

theorem SearchState.reset_legal (x : SearchState) : x.reset.Legal := ⟨Nat.zero_le _, Nat.zero_le _, .inl rfl⟩

/-- Outside a search step and at its beginning the condition is on the Search State alone. -/
theorem Control.OutsideStep.searchOk_iff {s : State} (h : s.ctl.OutsideStep) : s.SearchOk ↔ s.search.Legal := by
  unfold State.SearchOk
  rcases h with h | h <;> rw [h] <;> exact Iff.rfl

/-- The condition is on the search step's point, the Search State and the walk temporaries, and on nothing else. -/
theorem State.SearchOk.congr {s t : State} (h : s.SearchOk) (hp : t.ctl.searchPt = s.ctl.searchPt)
    (hx : t.search = s.search) (hw : t.walk = s.walk) : t.SearchOk := by
  unfold State.SearchOk at *
  rwa [hp, hx, hw]

/-- The condition of a point, for a state that is put there: `SEARCH_NEXT` stands for every operation that makes the step. -/
def State.SearchOkAt (s : State) (p : SearchPt) : Prop := (s.goto (.searchNext p)).SearchOk

theorem searchOkAt_iff {s : State} {p : SearchPt} (h : s.ctl.searchPt = some p) : s.SearchOkAt p ↔ s.SearchOk :=
  ⟨fun hok => hok.congr h rfl rfl, fun hok => hok.congr h.symm rfl rfl⟩

theorem trackZero_okAt {s : State} (h : s.SearchOkAt .sZero) : s.trackZero.SearchOkAt .sStore := by
  obtain ⟨hld, hlfd, hldf, hwalk, hlast⟩ := h
  unfold State.trackZero
  split
  · by_cases h8 : s.walk.n ≤ 8
    · rw [if_pos h8]
      exact ⟨hld, h8, hldf, hwalk, le_rfl⟩
    · rw [if_neg h8]
      exact ⟨hld, hlfd, hldf, hwalk, le_rfl⟩
  · exact ⟨hld, hlfd, hldf, hwalk, hlast.le⟩

/-- At the end of a walk `LastDiscrepancy` is `last_zero`, and the flag is set iff that is 0 (R193). -/
theorem endWalk_okAt {s : State} (h : s.SearchOkAt .sFin) : s.endWalk.SearchOkAt .sAllzero := by
  obtain ⟨_, hlfd, hldf, hlast⟩ := h
  have hflag : s.search.lastDeviceFlag = false := hldf
  refine ⟨hlast, hlfd, ?_⟩
  by_cases hz : s.walk.lastZero = 0
  · exact .inr ⟨hz, by simp [hz]⟩
  · have hpos : s.walk.lastZero.toNat ≠ 0 := fun h0 => hz (BitVec.eq_of_toNat_eq h0)
    exact .inl ⟨Nat.one_le_iff_ne_zero.2 hpos, by simpa [hflag] using hz⟩

theorem advance_okAt {s : State} (h : s.SearchOkAt .sAdv) :
    (searchPoint .sAdv s).2.Meets (fun q => (searchPoint .sAdv s).1.SearchOkAt q) fun _ => False := by
  obtain ⟨hld, hlfd, hldf, hwalk, hlast⟩ := h
  have hw : s.walk.Coherent := hwalk
  obtain ⟨hn, hz, _, _⟩ := Walk.advance_of_coherent hw
  have hlast' : s.walk.advance.lastZero.toNat ≤ s.walk.n.toNat := hz ▸ hlast
  by_cases hmore : s.walk.advance.more = true
  · have hlt : s.walk.advance.lastZero.toNat < s.walk.advance.n.toNat := by omega
    simp only [searchPoint, hmore, if_true]
    exact ⟨hld, hlfd, hldf, Walk.advance_coherent hw ((Walk.more_advance_iff hw).1 hmore), hlt⟩
  · simp only [searchPoint, hmore]
    exact ⟨hld, hlfd, hldf, hlast'.trans hw.2.1⟩

/-- Every point of the search step leads to a point at which its own condition holds, or out of the step with a legal Search
State. -/
theorem searchPoint_okAt {p : SearchPt} {s : State} (h : s.SearchOkAt p) :
    (searchPoint p s).2.Meets (fun q => (searchPoint p s).1.SearchOkAt q) fun _ => (searchPoint p s).1.search.Legal := by
  have ⟨hld, hlfd, hp⟩ := h
  cases p with
  | sFresh =>
    show s.beginStep.SearchOkAt .sLdf
    unfold State.beginStep
    split <;> exact ⟨hld, hlfd, hp⟩
  | sLdf =>
    rcases hldf : s.search.lastDeviceFlag with _ | _ <;> simp only [searchPoint, hldf]
    · exact ⟨hld, hlfd, hldf⟩
    · exact ⟨hld, hlfd, trivial⟩
  | sReset q =>
    rcases hq : resetPoint q s.link with ⟨l, q' | _ | _⟩ <;> simp only [searchPoint, hq]
    · exact ⟨hld, hlfd, hp⟩
    · exact ⟨hld, hlfd, trivial⟩
    · exact ⟨hld, hlfd, hp⟩
  | sCmd q | sTrip q =>
    rcases hq : cmdPoint s.ctl.cmd q s.link with ⟨l, q' | _ | _⟩ <;> simp only [searchPoint, hq]
    · exact ⟨hld, hlfd, hp⟩
    · exact ⟨hld, hlfd, hp⟩
    · exact ⟨hld, hlfd, trivial⟩
  | sAbsent =>
    rcases hno : noDevice s.link.snap with _ | _ <;> simp only [searchPoint, hno]
    · exact h
    · exact ⟨hld, hlfd, trivial⟩
  | sAllzero =>
    rcases hall : s.search.allZero with _ | _ <;> simp only [searchPoint, hall]
    · exact h
    · exact ⟨hld, hlfd, trivial⟩
  | sInit => exact ⟨hld, hlfd, hp, Walk.init_coherent _, Nat.zero_lt_one⟩
  | sZero => exact trackZero_okAt h
  | sAdv =>
    have hadv := advance_okAt h
    rcases hf : (searchPoint .sAdv s).2 with q | r <;> rw [hf] at hadv
    · exact hadv
    · exact hadv.elim
  | sFin => exact endWalk_okAt h
  | sFound => exact ⟨hld, hlfd, .inr (hp.imp (fun h => ⟨h.1, hld, h.2⟩) id)⟩
  | sFail => exact s.search.reset_legal
  | sDir | sDecode | sStore | sReg => exact ⟨hld, hlfd, hp⟩

/-- Settles O48: the Search State is emptied or kept between operations, and the points of a search step hand on the
condition of the next one. -/
theorem searchStateStaysLegal : Obligations.SearchStateStaysLegal := by
  intro s t hs h
  cases step_storeStep h with
  | kept hout ht hx hw hr => exact ht.searchOk_iff.2 (hx ▸ (Control.OutsideStep.searchOk_iff (.inl hout)).1 hs)
  | emptied ht hx hr => exact ht.searchOk_iff.2 (hx ▸ s.search.reset_legal)
  | searched p hp ht hx hw hr =>
    have hok := searchPoint_okAt ((searchOkAt_iff hp).2 hs)
    rcases hf : (searchPoint p s).2 with q | r <;> rw [hf] at ht hok
    · exact hok.congr ht hx hw
    · exact Control.OutsideStep.searchOk_iff ht |>.2 (hx ▸ hok)

end Sys2Proof.Machine
end

/-! ## The busy-wait discipline (R72)

Every sub-machine hands the link's condition from point to point: a poll ends `OK` right after a status read that shows its
condition, and a command goes out only there. -/

section
namespace Sys2Proof.Machine

/-! ### What is sent to a bridge -/

/-- From one link side to the next, a command other than set-read-pointer and the bus reset is sent only right after a status
read that showed busy = 0. -/
def Link.Disciplined (l l' : Link) : Prop :=
  ∀ f, l'.trace = sent f :: l.trace → f.code ≠ 0xE1 → f ≠ ⟨0xB4, none⟩ → l.PolledIdle

theorem Link.disciplined_self {l l' : Link} (h : l'.trace = l.trace) : l.Disciplined l' := by
  intro f hf
  simp [h] at hf

theorem Link.disciplined_select (l : Link) (ptr : Byte) : l.Disciplined (l.write (selectFrame ptr)) := by
  intro f hf hcode
  obtain rfl : selectFrame ptr = f := by simpa [sent] using hf
  exact absurd rfl hcode

theorem Link.disciplined_busReset (l : Link) : l.Disciplined (l.write busResetFrame) := by
  intro f hf _ hreset
  obtain rfl : busResetFrame = f := by simpa [sent] using hf
  exact absurd rfl hreset

theorem Link.disciplined_read (l : Link) (ptr : Byte) : l.Disciplined (l.read ptr) := by
  intro f hf
  simp [sent] at hf

theorem Link.disciplined_tick (l : Link) : l.Disciplined l.tick := by
  intro f hf
  simp [sent] at hf

theorem readPoint_disciplined (ptr : Byte) (p : ReadPt) (l : Link) : l.Disciplined (readPoint ptr p l).1 := by
  cases p with
  | rrSel => exact l.disciplined_select ptr
  | rrRd => exact l.disciplined_read ptr

theorem pollPoint_disciplined (c : Cond) (T : Nat) (p : PollPt) (l : Link) : l.Disciplined (pollPoint c T p l).1 := by
  cases p with
  | pT0 | pTime => exact l.disciplined_tick
  | pSample r => exact readPoint_disciplined statusPtr r l
  | pTest | pOk | pTimeout => exact Link.disciplined_self rfl

theorem cmdPoint_disciplined (cmd : Frame) {p : CmdPt} {l : Link} (h : p.LinkOk l) : l.Disciplined (cmdPoint cmd p l).1 := by
  cases p with
  | cPre q | cPost q => exact pollPoint_disciplined _ _ q l
  | cIssue => exact fun _ _ _ _ => h
  | cOk | cFail => exact Link.disciplined_self rfl

theorem resetPoint_disciplined (p : ResetPt) (l : Link) : l.Disciplined (resetPoint p l).1 := by
  cases p with
  | brIssue => exact l.disciplined_busReset
  | brPpd q | brBusy q => exact pollPoint_disciplined _ _ q l
  | brTrue | brFalse => exact Link.disciplined_self rfl

theorem searchPoint_disciplined {p : SearchPt} {s : State} (h : p.LinkOk s.link) :
    s.link.Disciplined (searchPoint p s).1.link := by
  cases p with
  | sReset q =>
    have hq := resetPoint_disciplined q s.link
    rcases hr : resetPoint q s.link with ⟨l, q' | _ | _⟩ <;> simpa [searchPoint, hr] using hq
  | sCmd q | sTrip q => exact cmdPoint_disciplined _ h
  | sFresh => exact Link.disciplined_self (by rw [searchPoint, beginStep_link])
  | sZero => exact Link.disciplined_self (by rw [searchPoint, trackZero_link])
  | sLdf | sInit | sDir | sDecode | sAbsent | sStore | sAdv | sFin | sAllzero | sReg | sFound | sFail =>
    exact Link.disciplined_self rfl

/-! ### The condition from point to point -/

/-- A status read selects the status register and then samples it (R150, R151). -/
theorem readPoint_linkOk {p : ReadPt} {l : Link} (h : p.LinkOk l) :
    (readPoint statusPtr p l).2.Meets (·.LinkOk (readPoint statusPtr p l).1) fun _ => (readPoint statusPtr p l).1.Sampled := by
  cases p with
  | rrSel => exact ⟨l.trace, rfl⟩
  | rrRd =>
    obtain ⟨rest, hrest⟩ := h
    exact ⟨rest, by simp [readPoint, hrest]⟩

/-- A poll ends `OK` right after a status read that shows its condition (R152). -/
theorem pollPoint_linkOk {c : Cond} (T : Nat) {p : PollPt} {l : Link} (h : p.LinkOk c l) :
    (pollPoint c T p l).2.Meets (·.LinkOk c (pollPoint c T p l).1)
      fun r => r = .ok → PollPt.LinkOk c .pOk (pollPoint c T p l).1 := by
  cases p with
  | pT0 => trivial
  | pSample r => exact (readPoint_linkOk h).within (fun _ hr => hr) fun _ hr => hr
  | pTest =>
    show PollPt.LinkOk c (if c.holds l.snap then .pOk else .pTime) l
    split
    · next hc => exact ⟨h, hc⟩
    · exact h
  | pTime =>
    show PollPt.LinkOk c (if expired l.t0 l.now T then .pTimeout else .pSample .rrSel) l.tick
    split <;> trivial
  | pOk => exact fun _ => h
  | pTimeout => exact nofun

/-- A busy-wait that ended `OK` has just seen the bridge idle (R72, R153). -/
theorem polledIdle_of_pOk {l : Link} (h : PollPt.LinkOk .notBusy .pOk l) : l.PolledIdle := by
  obtain ⟨hsampled, hidle⟩ := h
  exact ⟨hsampled, by simpa [Cond.holds] using hidle⟩

/-- A `Cmd` that ends `OK` has just seen the bridge idle (R154). -/
theorem cmdPoint_linkOk (cmd : Frame) {p : CmdPt} {l : Link} (h : p.LinkOk l) :
    (cmdPoint cmd p l).2.Meets (·.LinkOk (cmdPoint cmd p l).1) fun r => r = .ok → (cmdPoint cmd p l).1.PolledIdle := by
  cases p with
  | cPre q | cPost q =>
    refine (pollPoint_linkOk Config.tBusy h).within (fun _ hq => hq) fun r hr => ?_
    cases r with
    | ok => exact polledIdle_of_pOk (hr rfl)
    | timeout => trivial
  | cIssue => trivial
  | cOk => exact fun _ => h
  | cFail => exact nofun

/-- `reset()` keeps its condition from point to point (R140). -/
theorem resetPoint_linkOk {p : ResetPt} {l : Link} (h : p.LinkOk l) :
    (resetPoint p l).2.Meets (·.LinkOk (resetPoint p l).1) fun _ => True := by
  cases p with
  | brPpd q =>
    refine (pollPoint_linkOk Config.tReset h).within (fun _ hq => hq) fun r _ => ?_
    cases r <;> trivial
  | brBusy q =>
    refine (pollPoint_linkOk Config.tBusy h).within (fun _ hq => hq) fun r hr => ?_
    cases r with
    | ok => exact polledIdle_of_pOk (hr rfl)
    | timeout => trivial
  | brIssue | brTrue | brFalse => trivial

/-- The snapshot a walk decodes is the one taken after its triplet (R31, R188). -/
theorem searchPoint_linkOk {p : SearchPt} {s : State} (h : p.LinkOk s.link) :
    (searchPoint p s).2.Meets (·.LinkOk (searchPoint p s).1.link) fun _ => True := by
  cases p with
  | sReset q =>
    have hq := resetPoint_linkOk h
    rcases hr : resetPoint q s.link with ⟨l, q' | _ | _⟩ <;> simp only [searchPoint, hr] at hq ⊢
    · trivial
    · trivial
    · exact hq
  | sCmd q =>
    refine (cmdPoint_linkOk s.ctl.cmd h).within (fun _ hq => hq) fun r _ => ?_
    cases r <;> trivial
  | sTrip q =>
    refine (cmdPoint_linkOk s.ctl.cmd h).within (fun _ hq => hq) fun r hr => ?_
    cases r with
    | ok => exact hr rfl
    | timeout => trivial
  | sDecode => exact h
  | sAbsent =>
    show SearchPt.LinkOk (if noDevice s.link.snap then .sFail else .sZero) s.link
    split
    · trivial
    · exact h
  | sZero =>
    show s.trackZero.link.PolledIdle
    rw [trackZero_link]
    exact h
  | sLdf =>
    show SearchPt.LinkOk (if s.search.lastDeviceFlag then .sFail else .sReset .brIssue) s.link
    split <;> trivial
  | sAdv =>
    show SearchPt.LinkOk (if s.walk.advance.more then .sDir else .sFin) s.link
    split <;> trivial
  | sAllzero =>
    show SearchPt.LinkOk (if s.search.allZero then .sFail else .sReg) s.link
    split <;> trivial
  | sFresh | sInit | sDir | sStore | sFin | sReg | sFound | sFail => trivial

/-! ### The calls of the host operations -/

/-- A step keeps the discipline of R72. -/
def KeepsDiscipline (s t : State) : Prop := s.LinkOk → t.LinkOk ∧ s.link.Disciplined t.link

section
variable {s : State}

theorem keepsDiscipline_of_link {t : State} (ht : t.LinkOk) (hl : t.link.trace = s.link.trace) : KeepsDiscipline s t :=
  fun _ => ⟨ht, Link.disciplined_self hl⟩

theorem request_keepsDiscipline (w : CmdWord) : Gives (KeepsDiscipline s) (s.request w) := by
  rcases request_cases s w with ⟨_, h⟩ | ⟨_, h⟩ <;> rw [h]
  · exact gives_next.2 (keepsDiscipline_of_link trivial rfl)
  · exact gives_refused

/-- The condition of the point control is at, as a condition of the link side. -/
theorem linkOk_of_fsm {f : Fsm} (h : s.ctl.fsm = f) (hs : s.LinkOk) : (s.goto f).LinkOk := by
  subst f
  exact hs

theorem callCmd_keepsDiscipline {o : Op} {p : CmdPt} {stay : CmdPt → Fsm} {ok : State → State}
    (hs : s.LinkOk → p.LinkOk s.link) (hstay : ∀ (u : State) (q : CmdPt), q.LinkOk u.link → (u.goto (stay q)).LinkOk)
    (hok : ∀ u, (ok u).LinkOk ∧ (ok u).link = u.link) : KeepsDiscipline s (s.callCmd o p stay ok) := by
  intro h
  have hsend := cmdPoint_disciplined s.ctl.cmd (hs h)
  have hnext := cmdPoint_linkOk s.ctl.cmd (hs h)
  unfold State.callCmd
  split <;> rename_i hp <;> rw [hp] at hsend hnext
  · exact ⟨hstay _ _ hnext, hsend⟩
  · exact ⟨(hok _).1, by rw [(hok _).2]; exact hsend⟩
  · exact ⟨trivial, hsend⟩

theorem callRead_keepsDiscipline {ptr : Byte} {p : ReadPt} {stay : ReadPt → Fsm} {ok : State → State}
    (hstay : ∀ (u : State) (q : ReadPt), (u.goto (stay q)).LinkOk) (hok : ∀ u, (ok u).LinkOk ∧ (ok u).link = u.link) :
    KeepsDiscipline s (s.callRead ptr p stay ok) := by
  intro _
  have hsend := readPoint_disciplined ptr p s.link
  unfold State.callRead
  split <;> rename_i hp <;> rw [hp] at hsend
  · exact ⟨hstay _ _, hsend⟩
  · exact ⟨(hok _).1, by rw [(hok _).2]; exact hsend⟩

theorem callPoll_keepsDiscipline {T : Nat} {p : PollPt} {stay : PollPt → Fsm} {ok timeout : State → State}
    (hs : s.LinkOk → p.LinkOk .notBusy s.link)
    (hstay : ∀ (u : State) (q : PollPt), q.LinkOk .notBusy u.link → (u.goto (stay q)).LinkOk)
    (hok : ∀ u, (ok u).LinkOk ∧ (ok u).link = u.link)
    (htimeout : ∀ u, (timeout u).LinkOk ∧ (timeout u).link = u.link) :
    KeepsDiscipline s (s.callPoll T p stay ok timeout) := by
  intro h
  have hsend := pollPoint_disciplined .notBusy T p s.link
  have hnext := pollPoint_linkOk T (hs h)
  unfold State.callPoll
  split <;> rename_i hp <;> rw [hp] at hsend hnext
  · exact ⟨hstay _ _ hnext, hsend⟩
  · exact ⟨(hok _).1, by rw [(hok _).2]; exact hsend⟩
  · exact ⟨(htimeout _).1, by rw [(htimeout _).2]; exact hsend⟩

/-- A point of the search step: control stays in the step, or goes to a point where nothing is asked of the link. -/
theorem searchPoint_keepsDiscipline {p : SearchPt} {t : State} {f : Flow SearchPt SearchResult}
    (hp : searchPoint p s = (t, f)) (hs : s.LinkOk → p.LinkOk s.link) {t' : State} (hlink : t'.link = t.link)
    (ht : f.Meets (fun q => q.LinkOk t.link → t'.LinkOk) fun _ => t'.LinkOk) : KeepsDiscipline s t' := by
  intro h
  have hsend := searchPoint_disciplined (hs h)
  have hnext := searchPoint_linkOk (hs h)
  rw [hp] at hsend hnext
  refine ⟨?_, hlink ▸ hsend⟩
  cases f with
  | goto q => exact ht hnext
  | done r => exact ht

theorem callSearch_keepsDiscipline {p : SearchPt} {stay : SearchPt → Fsm} (hs : s.LinkOk → p.LinkOk s.link)
    (hstay : ∀ (u : State) (q : SearchPt), q.LinkOk u.link → (u.goto (stay q)).LinkOk) :
    KeepsDiscipline s (s.callSearch p stay) := by
  unfold State.callSearch
  split
  · next hp => exact searchPoint_keepsDiscipline hp hs rfl (hstay _ _)
  · next t r hp =>
    refine searchPoint_keepsDiscipline hp hs (reportSearch_link t r) ?_
    cases r <;> trivial

/-! ### The operations -/

variable (a : Byte)

theorem execOwReset_keepsDiscipline : Gives (KeepsDiscipline s) (execOwReset a s) := by
  unfold execOwReset
  split
  · exact gives_next.2 (keepsDiscipline_of_link trivial rfl)
  · next p h =>
    have hsend := resetPoint_disciplined p s.link
    split <;> rename_i hp <;> rw [hp] at hsend <;> refine gives_next.2 fun hs => ⟨?_, hsend⟩
    · have hp' : p.LinkOk s.link := linkOk_of_fsm h hs
      have hnext := resetPoint_linkOk hp'
      rw [hp] at hnext
      exact hnext
    · trivial
    · trivial
  · exact request_keepsDiscipline _

theorem execBusyWait_keepsDiscipline : Gives (KeepsDiscipline s) (execBusyWait a s) := by
  unfold execBusyWait
  split
  · exact gives_next.2 (keepsDiscipline_of_link trivial rfl)
  · next h =>
    exact gives_next.2 (callPoll_keepsDiscipline (linkOk_of_fsm h) (fun _ _ hq => hq) (fun _ => ⟨trivial, rfl⟩)
      fun _ => ⟨trivial, rfl⟩)
  · exact request_keepsDiscipline _

theorem execReadReg_keepsDiscipline : Gives (KeepsDiscipline s) (execReadReg a s) := by
  unfold execReadReg
  split
  · refine gives_next.2 (keepsDiscipline_of_link ?_ rfl)
    split <;> trivial
  · next h =>
    exact gives_next.2 (callPoll_keepsDiscipline (linkOk_of_fsm h) (fun _ _ hq => hq) (fun _ => ⟨trivial, rfl⟩)
      fun _ => ⟨trivial, rfl⟩)
  · exact gives_next.2 (callRead_keepsDiscipline (fun _ _ => trivial) fun _ => ⟨trivial, rfl⟩)
  · exact request_keepsDiscipline _

theorem execWriteByte_keepsDiscipline : Gives (KeepsDiscipline s) (execWriteByte a s) := by
  unfold execWriteByte
  split
  · exact gives_next.2 (keepsDiscipline_of_link trivial rfl)
  · next h =>
    exact gives_next.2 (callCmd_keepsDiscipline (linkOk_of_fsm h) (fun _ _ hq => hq) fun _ => ⟨trivial, rfl⟩)
  · exact request_keepsDiscipline _

theorem execReadByte_keepsDiscipline : Gives (KeepsDiscipline s) (execReadByte a s) := by
  unfold execReadByte
  split
  · exact gives_next.2 (keepsDiscipline_of_link trivial rfl)
  · next h =>
    exact gives_next.2 (callCmd_keepsDiscipline (linkOk_of_fsm h) (fun _ _ hq => hq) fun _ => ⟨trivial, rfl⟩)
  · exact gives_next.2 (callRead_keepsDiscipline (fun _ _ => trivial) fun _ => ⟨trivial, rfl⟩)
  · exact request_keepsDiscipline _

theorem execTriplet_keepsDiscipline : Gives (KeepsDiscipline s) (execTriplet a s) := by
  unfold execTriplet
  split
  · exact gives_next.2 (keepsDiscipline_of_link trivial rfl)
  · next h =>
    exact gives_next.2 (callCmd_keepsDiscipline (linkOk_of_fsm h) (fun _ _ hq => hq) fun _ => ⟨trivial, rfl⟩)
  · exact request_keepsDiscipline _

theorem execDevReset_keepsDiscipline : Gives (KeepsDiscipline s) (execDevReset a s) := by
  unfold execDevReset
  split
  · exact gives_next.2 (keepsDiscipline_of_link trivial rfl)
  · next h =>
    exact gives_next.2 (callCmd_keepsDiscipline (linkOk_of_fsm h) (fun _ _ hq => hq) fun _ => ⟨trivial, rfl⟩)
  · exact request_keepsDiscipline _

theorem execCfgWrite_keepsDiscipline : Gives (KeepsDiscipline s) (execCfgWrite a s) := by
  unfold execCfgWrite
  split
  · exact gives_next.2 (keepsDiscipline_of_link trivial rfl)
  · next h =>
    exact gives_next.2 (callCmd_keepsDiscipline (linkOk_of_fsm h) (fun _ _ hq => hq) fun _ => ⟨trivial, rfl⟩)
  · exact gives_next.2 (callRead_keepsDiscipline (fun _ _ => trivial) fun _ => ⟨trivial, rfl⟩)
  · split <;> exact gives_next.2 (keepsDiscipline_of_link trivial rfl)
  · exact request_keepsDiscipline _

theorem execSearchFirst_keepsDiscipline : Gives (KeepsDiscipline s) (execSearchFirst a s) := by
  unfold execSearchFirst
  split
  · exact gives_next.2 (keepsDiscipline_of_link trivial rfl)
  · next h => exact gives_next.2 (callSearch_keepsDiscipline (linkOk_of_fsm h) fun _ _ hq => hq)
  · exact request_keepsDiscipline _

theorem execSearchNext_keepsDiscipline : Gives (KeepsDiscipline s) (execSearchNext a s) := by
  unfold execSearchNext
  split
  · exact gives_next.2 (keepsDiscipline_of_link trivial rfl)
  · next h => exact gives_next.2 (callSearch_keepsDiscipline (linkOk_of_fsm h) fun _ _ hq => hq)
  · exact request_keepsDiscipline _

theorem execEnumerate_keepsDiscipline : Gives (KeepsDiscipline s) (execEnumerate a s) := by
  unfold execEnumerate
  split
  case h_2 p h | h_3 p h =>
    split
    · next hp => exact gives_next.2 (searchPoint_keepsDiscipline hp (linkOk_of_fsm h) rfl fun hq => hq)
    · next t r hp =>
      refine gives_next.2 (searchPoint_keepsDiscipline hp (linkOk_of_fsm h) rfl ?_)
      cases r <;> trivial
  · exact gives_next.2 (keepsDiscipline_of_link trivial rfl)
  · exact gives_next.2 (keepsDiscipline_of_link trivial rfl)
  · exact request_keepsDiscipline _

theorem execRegLookup_keepsDiscipline : Gives (KeepsDiscipline s) (execRegLookup a s) := by
  unfold execRegLookup
  split
  · exact gives_next.2 (keepsDiscipline_of_link trivial rfl)
  · split <;> exact gives_next.2 (keepsDiscipline_of_link trivial rfl)
  · exact gives_next.2 (keepsDiscipline_of_link trivial rfl)
  · exact request_keepsDiscipline _

theorem execRegGetall_keepsDiscipline : Gives (KeepsDiscipline s) (execRegGetall a s) := by
  unfold execRegGetall
  split
  · exact gives_next.2 (keepsDiscipline_of_link trivial rfl)
  · exact gives_next.2 (keepsDiscipline_of_link trivial rfl)
  · exact gives_next.2 (keepsDiscipline_of_link trivial rfl)
  · exact request_keepsDiscipline _

theorem illegal_keepsDiscipline (op : BitVec 4) : Gives (KeepsDiscipline s) (s.illegal op a) := by
  unfold State.illegal
  split
  · exact gives_next.2 (keepsDiscipline_of_link trivial rfl)
  · exact request_keepsDiscipline _

end

theorem exec_keepsDiscipline {i : Instr} (hi : HostLevel i) (s : State) : Gives (KeepsDiscipline s) (exec i s) := by
  obtain ⟨w, hw⟩ := hi
  cases i with
  | owReset a => exact execOwReset_keepsDiscipline a
  | busyWait a => exact execBusyWait_keepsDiscipline a
  | readReg a => exact execReadReg_keepsDiscipline a
  | writeByte a => exact execWriteByte_keepsDiscipline a
  | readByte a => exact execReadByte_keepsDiscipline a
  | triplet a => exact execTriplet_keepsDiscipline a
  | devReset a => exact execDevReset_keepsDiscipline a
  | cfgWrite a => exact execCfgWrite_keepsDiscipline a
  | searchFirst a => exact execSearchFirst_keepsDiscipline a
  | searchNext a => exact execSearchNext_keepsDiscipline a
  | enumerate a => exact execEnumerate_keepsDiscipline a
  | regLookup a => exact execRegLookup_keepsDiscipline a
  | regGetall a => exact execRegGetall_keepsDiscipline a
  | reserved0 a | reservedE a | reservedF a => exact illegal_keepsDiscipline a _
  | brDeviceReset | brSetReadPointer _ | brConfigWrite _ | brChannelSelect _ | brBusReset | brWriteByte _ | brReadByte
  | brTriplet _ | ptrStatus | ptrData | ptrChannel | ptrConfig | busSearch | busMatchRom => cases hw

theorem rest_keepsDiscipline (s : State) : KeepsDiscipline s s.rest := by
  refine keepsDiscipline_of_link ?_ (congrArg _ (rest_link s))
  have hidle (hs : s.ctl.fsm = .idle) (t : State) (ht : t.ctl = s.ctl) : t.LinkOk := by
    unfold State.LinkOk
    rw [ht, hs]
    trivial
  unfold State.rest
  split
  · trivial
  · next hs _ => exact hidle hs _ rfl
  · next hs _ => exact hidle hs _ rfl
  · trivial

/-- Settles O50: a machine at rest sends nothing, and every operation hands the condition on from point to point. -/
theorem commandsOnlyToAnIdleBridge : Obligations.CommandsOnlyToAnIdleBridge := by
  intro s t hs h
  rcases step_top_or_exec h with ⟨_, rfl⟩ | ⟨_, _, i, hi, hexec⟩
  · exact rest_keepsDiscipline s hs
  · exact exec_keepsDiscipline hi s t hexec hs

end Sys2Proof.Machine
end

/-! ## A host write of `ARG_ID` and the operation that runs (R35, R76)

Outside IDLE nothing reads `ARG_ID`: every operation's point commutes with a write of it. -/

section
namespace Sys2Proof.Machine

/-- The outcome with its next state, if it has one, mapped. -/
def onNext (g : State → State) : Host.Outcome State Fault Refusal → Host.Outcome State Fault Refusal
  | .next s => .next (g s)
  | .fault r => .fault r
  | .refused r => .refused r

section
variable {v : RomId} {s : State}

/-- A request outside IDLE is refused, whatever `ARG_ID` is. -/
theorem request_hostWriteArgId (h : s.ctl.fsm ≠ .idle) (w : CmdWord) :
    (hostWriteArgId v s).request w = onNext (hostWriteArgId v) (s.request w) := by
  have hs : s.run = true := by simpa [State.run] using h
  have hv : (hostWriteArgId v s).run = true := hs
  simp [State.request, hs, hv, onNext]

theorem callCmd_hostWriteArgId {o : Op} {p : CmdPt} {stay : CmdPt → Fsm} {ok : State → State}
    (hok : ∀ u, ok (hostWriteArgId v u) = hostWriteArgId v (ok u)) :
    (hostWriteArgId v s).callCmd o p stay ok = hostWriteArgId v (s.callCmd o p stay ok) := by
  rcases hp : cmdPoint s.ctl.cmd p s.link with ⟨l, q | _ | _⟩ <;> simp only [State.callCmd, hostWriteArgId, hp]
  · rfl
  · exact hok (s.withLink l)
  · rfl

theorem callRead_hostWriteArgId {ptr : Byte} {p : ReadPt} {stay : ReadPt → Fsm} {ok : State → State}
    (hok : ∀ u, ok (hostWriteArgId v u) = hostWriteArgId v (ok u)) :
    (hostWriteArgId v s).callRead ptr p stay ok = hostWriteArgId v (s.callRead ptr p stay ok) := by
  rcases hp : readPoint ptr p s.link with ⟨l, q | _⟩ <;> simp only [State.callRead, hostWriteArgId, hp]
  · rfl
  · exact hok (s.withLink l)

theorem callPoll_hostWriteArgId {T : Nat} {p : PollPt} {stay : PollPt → Fsm} {ok timeout : State → State}
    (hok : ∀ u, ok (hostWriteArgId v u) = hostWriteArgId v (ok u))
    (htimeout : ∀ u, timeout (hostWriteArgId v u) = hostWriteArgId v (timeout u)) :
    (hostWriteArgId v s).callPoll T p stay ok timeout = hostWriteArgId v (s.callPoll T p stay ok timeout) := by
  rcases hp : pollPoint .notBusy T p s.link with ⟨l, q | _ | _⟩ <;> simp only [State.callPoll, hostWriteArgId, hp]
  · rfl
  · exact hok (s.withLink l)
  · exact htimeout (s.withLink l)

theorem beginStep_hostWriteArgId : (hostWriteArgId v s).beginStep = hostWriteArgId v s.beginStep := by
  unfold State.beginStep
  rw [show (hostWriteArgId v s).search = s.search from rfl]
  split <;> rfl

theorem trackZero_hostWriteArgId : (hostWriteArgId v s).trackZero = hostWriteArgId v s.trackZero := by
  unfold State.trackZero
  rw [show (hostWriteArgId v s).link = s.link from rfl]
  split <;> rfl

theorem searchPoint_hostWriteArgId (p : SearchPt) :
    searchPoint p (hostWriteArgId v s) = (hostWriteArgId v (searchPoint p s).1, (searchPoint p s).2) := by
  cases p with
  | sFresh => exact congrArg (·, _) beginStep_hostWriteArgId
  | sZero => exact congrArg (·, _) trackZero_hostWriteArgId
  | sReset q =>
    rcases hp : resetPoint q s.link with ⟨l, q' | _ | _⟩ <;> simp only [searchPoint, hostWriteArgId, hp] <;> rfl
  | sLdf | sCmd q | sInit | sDir | sTrip q | sDecode | sAbsent | sStore | sAdv | sFin | sAllzero | sReg | sFound
    | sFail => rfl

theorem reportSearch_hostWriteArgId (r : SearchResult) :
    (hostWriteArgId v s).reportSearch r = hostWriteArgId v (s.reportSearch r) := by
  cases r <;> rfl

theorem callSearch_hostWriteArgId {p : SearchPt} {stay : SearchPt → Fsm} :
    (hostWriteArgId v s).callSearch p stay = hostWriteArgId v (s.callSearch p stay) := by
  unfold State.callSearch
  rw [searchPoint_hostWriteArgId]
  rcases searchPoint p s with ⟨t, q | r⟩
  · rfl
  · exact reportSearch_hostWriteArgId r

/-! ### The operations -/

/-- `ARG_ID` is no part of the control state. -/
theorem hostWriteArgId_ctl : (hostWriteArgId v s).ctl = s.ctl := rfl

variable (h : s.ctl.fsm ≠ .idle) (a : Byte)
include h

theorem execOwReset_hostWriteArgId :
    execOwReset a (hostWriteArgId v s) = onNext (hostWriteArgId v) (execOwReset a s) := by
  unfold execOwReset
  rw [hostWriteArgId_ctl]
  split
  · rfl
  · next p _ => rcases hp : resetPoint p s.link with ⟨l, q | _ | _⟩ <;> simp only [hostWriteArgId, hp] <;> rfl
  · exact request_hostWriteArgId h _

theorem execBusyWait_hostWriteArgId :
    execBusyWait a (hostWriteArgId v s) = onNext (hostWriteArgId v) (execBusyWait a s) := by
  unfold execBusyWait
  rw [hostWriteArgId_ctl]
  split
  · rfl
  · exact congrArg _ (callPoll_hostWriteArgId (fun _ => rfl) fun _ => rfl)
  · exact request_hostWriteArgId h _

theorem execReadReg_hostWriteArgId :
    execReadReg a (hostWriteArgId v s) = onNext (hostWriteArgId v) (execReadReg a s) := by
  unfold execReadReg
  rw [hostWriteArgId_ctl]
  split
  · rfl
  · exact congrArg _ (callPoll_hostWriteArgId (fun _ => rfl) fun _ => rfl)
  · exact congrArg _ (callRead_hostWriteArgId fun _ => rfl)
  · exact request_hostWriteArgId h _

theorem execWriteByte_hostWriteArgId :
    execWriteByte a (hostWriteArgId v s) = onNext (hostWriteArgId v) (execWriteByte a s) := by
  unfold execWriteByte
  rw [hostWriteArgId_ctl]
  split
  · rfl
  · exact congrArg _ (callCmd_hostWriteArgId fun _ => rfl)
  · exact request_hostWriteArgId h _

theorem execReadByte_hostWriteArgId :
    execReadByte a (hostWriteArgId v s) = onNext (hostWriteArgId v) (execReadByte a s) := by
  unfold execReadByte
  rw [hostWriteArgId_ctl]
  split
  · rfl
  · exact congrArg _ (callCmd_hostWriteArgId fun _ => rfl)
  · exact congrArg _ (callRead_hostWriteArgId fun _ => rfl)
  · exact request_hostWriteArgId h _

theorem execTriplet_hostWriteArgId :
    execTriplet a (hostWriteArgId v s) = onNext (hostWriteArgId v) (execTriplet a s) := by
  unfold execTriplet
  rw [hostWriteArgId_ctl]
  split
  · rfl
  · exact congrArg _ (callCmd_hostWriteArgId fun _ => rfl)
  · exact request_hostWriteArgId h _

theorem execDevReset_hostWriteArgId :
    execDevReset a (hostWriteArgId v s) = onNext (hostWriteArgId v) (execDevReset a s) := by
  unfold execDevReset
  rw [hostWriteArgId_ctl]
  split
  · rfl
  · exact congrArg _ (callCmd_hostWriteArgId fun _ => rfl)
  · exact request_hostWriteArgId h _

theorem execCfgWrite_hostWriteArgId :
    execCfgWrite a (hostWriteArgId v s) = onNext (hostWriteArgId v) (execCfgWrite a s) := by
  unfold execCfgWrite
  rw [hostWriteArgId_ctl]
  split
  · rfl
  · exact congrArg _ (callCmd_hostWriteArgId fun _ => rfl)
  · exact congrArg _ (callRead_hostWriteArgId fun _ => rfl)
  · rcases hc : configVerified (configFlags a) s.link.rd with _ | _ <;> simp only [hostWriteArgId, hc] <;> rfl
  · exact request_hostWriteArgId h _

theorem execSearchFirst_hostWriteArgId :
    execSearchFirst a (hostWriteArgId v s) = onNext (hostWriteArgId v) (execSearchFirst a s) := by
  unfold execSearchFirst
  rw [hostWriteArgId_ctl]
  split
  · rfl
  · exact congrArg _ callSearch_hostWriteArgId
  · exact request_hostWriteArgId h _

theorem execSearchNext_hostWriteArgId :
    execSearchNext a (hostWriteArgId v s) = onNext (hostWriteArgId v) (execSearchNext a s) := by
  unfold execSearchNext
  rw [hostWriteArgId_ctl]
  split
  · rfl
  · exact congrArg _ callSearch_hostWriteArgId
  · exact request_hostWriteArgId h _

theorem execEnumerate_hostWriteArgId :
    execEnumerate a (hostWriteArgId v s) = onNext (hostWriteArgId v) (execEnumerate a s) := by
  unfold execEnumerate
  rw [hostWriteArgId_ctl]
  split
  case h_2 p _ | h_3 p _ =>
    rw [searchPoint_hostWriteArgId]
    rcases searchPoint p s with ⟨t, q | r⟩ <;> rfl
  · rfl
  · rfl
  · exact request_hostWriteArgId h _

/-- The lookup reads the latched identifier, not `ARG_ID` (R222). -/
theorem execRegLookup_hostWriteArgId :
    execRegLookup a (hostWriteArgId v s) = onNext (hostWriteArgId v) (execRegLookup a s) := by
  unfold execRegLookup
  rw [hostWriteArgId_ctl]
  split
  · rfl
  · rcases hf : s.registry.find s.ctl.argId with _ | i <;> simp only [hostWriteArgId, hf] <;> rfl
  · rfl
  · exact request_hostWriteArgId h _

theorem execRegGetall_hostWriteArgId :
    execRegGetall a (hostWriteArgId v s) = onNext (hostWriteArgId v) (execRegGetall a s) := by
  unfold execRegGetall
  rw [hostWriteArgId_ctl]
  split
  · rfl
  · rfl
  · rfl
  · exact request_hostWriteArgId h _

theorem illegal_hostWriteArgId (op : BitVec 4) :
    (hostWriteArgId v s).illegal op a = onNext (hostWriteArgId v) (s.illegal op a) := by
  unfold State.illegal
  rw [hostWriteArgId_ctl]
  split
  · rfl
  · exact request_hostWriteArgId h _

end

/-- Outside IDLE every instruction commutes with a write of `ARG_ID`. -/
theorem exec_hostWriteArgId {s : State} (h : s.ctl.fsm ≠ .idle) (i : Instr) (v : RomId) :
    exec i (hostWriteArgId v s) = onNext (hostWriteArgId v) (exec i s) := by
  cases i with
  | owReset a => exact execOwReset_hostWriteArgId h a
  | busyWait a => exact execBusyWait_hostWriteArgId h a
  | readReg a => exact execReadReg_hostWriteArgId h a
  | writeByte a => exact execWriteByte_hostWriteArgId h a
  | readByte a => exact execReadByte_hostWriteArgId h a
  | triplet a => exact execTriplet_hostWriteArgId h a
  | devReset a => exact execDevReset_hostWriteArgId h a
  | cfgWrite a => exact execCfgWrite_hostWriteArgId h a
  | searchFirst a => exact execSearchFirst_hostWriteArgId h a
  | searchNext a => exact execSearchNext_hostWriteArgId h a
  | enumerate a => exact execEnumerate_hostWriteArgId h a
  | regLookup a => exact execRegLookup_hostWriteArgId h a
  | regGetall a => exact execRegGetall_hostWriteArgId h a
  | reserved0 a | reservedE a | reservedF a => exact illegal_hostWriteArgId h a _
  | brDeviceReset | brSetReadPointer _ | brConfigWrite _ | brChannelSelect _ | brBusReset | brWriteByte _ | brReadByte
  | brTriplet _ | ptrStatus | ptrData | ptrChannel | ptrConfig | busSearch | busMatchRom => rfl

/-- Outside IDLE the block retires, whatever waits at the host port (R34). -/
theorem rest_of_ne_idle {s : State} (h : s.ctl.fsm ≠ .idle) : s.rest = s.retire := by
  unfold State.rest
  split
  · contradiction
  · contradiction
  · contradiction
  · rfl

/-- Settles O55: fetching does not read `ARG_ID`, and neither does the instruction fetched. -/
theorem argIdWriteDoesNotReachTheOperation : Obligations.ArgIdWriteDoesNotReachTheOperation := by
  intro v s t hidle h
  have hfetch : (hostWriteArgId v s).fetched = s.fetched := rfl
  rcases step_cases h with ⟨hn, rfl⟩ | ⟨i, hi, hexec⟩
  · rw [rest_of_ne_idle hidle, step, hfetch, hn]
    exact congrArg _ (rest_of_ne_idle (s := hostWriteArgId v s) hidle)
  · rw [step_of_fetched (hfetch.trans hi), exec_hostWriteArgId hidle, hexec]
    rfl

end Sys2Proof.Machine
end

/-! ## IDLE, COMPLETE, acceptance and DISPATCH (R34, R35, R76) -/

section
namespace Sys2Proof.Machine

/-- Settles O10: the four cases of `State.rest`. -/
theorem idleAndComplete : Obligations.IdleAndComplete := by
  refine ⟨fun s hs hhost => ?_, fun s hs => ?_, fun s w later hs hhost => ?_, fun s v later hs hhost => ?_⟩
  · rw [step_top (.inl hs), State.rest, hs, hhost]
  · rw [step_top (.inr hs), rest_of_ne_idle (by simp [hs])]
    rfl
  · rw [step_top (.inl hs), State.rest, hs, hhost]
    rfl
  · rw [step_top (.inl hs), State.rest, hs, hhost]
    rfl

/-! ### Requests -/

/-- No operation with this operation code is running. -/
def Control.NotRunning (c : Control) (w : CmdWord) : Prop :=
  ∀ j w', c.running = some j → encode j = .hostWord w' → opField w ≠ opField w'

/-- Outside DISPATCH and outside its own points, an instruction of the host word layer is a request for its word (R76). -/
theorem exec_eq_request {i : Instr} {w : CmdWord} {s : State} (hi : encode i = .hostWord w)
    (hd : s.ctl.fsm ≠ .dispatch) (hr : s.ctl.NotRunning w) : exec i s = s.request w := by
  have own {j : Instr} {k : BitVec 4} {a : Byte} (hj : s.ctl.running = some j) (hw : w = hostWordOf k a)
      (he : encode j = .hostWord (hostWordOf k s.ctl.arg)) : False := hr j _ hj he (by simp [hw])
  cases i with
  | owReset a | busyWait a | writeByte a | triplet a | devReset a | searchFirst a | searchNext a =>
    cases hi
    dsimp only [exec, execOwReset, execBusyWait, execWriteByte, execTriplet, execDevReset, execSearchFirst, execSearchNext]
    split
    case h_1 h => exact absurd h hd
    case h_2 h => exact (own (by rw [Control.running, h]) rfl rfl).elim
    case h_3 => rfl
  | readReg a | readByte a | regLookup a | regGetall a =>
    cases hi
    dsimp only [exec, execReadReg, execReadByte, execRegLookup, execRegGetall]
    split
    case h_1 h => exact absurd h hd
    case h_2 h | h_3 h => exact (own (by rw [Control.running, h]) rfl rfl).elim
    case h_4 => rfl
  | cfgWrite a | enumerate a =>
    cases hi
    dsimp only [exec, execCfgWrite, execEnumerate]
    split
    case h_1 h => exact absurd h hd
    case h_2 h | h_3 h | h_4 h => exact (own (by rw [Control.running, h]) rfl rfl).elim
    case h_5 => rfl
  | reserved0 a | reservedE a | reservedF a =>
    cases hi
    dsimp only [exec, execReserved0, execReservedE, execReservedF, State.illegal]
    split
    case h_1 h => exact absurd h hd
    case h_2 => rfl
  | brDeviceReset | brSetReadPointer _ | brConfigWrite _ | brChannelSelect _ | brBusReset | brWriteByte _ | brReadByte
  | brTriplet _ | ptrStatus | ptrData | ptrChannel | ptrConfig | busSearch | busMatchRom => cases hi

theorem not_dispatch_of_running {c : Control} {i : Instr} (h : c.running = some i) :
    c.fsm ≠ .idle ∧ c.fsm ≠ .dispatch ∧ c.fsm ≠ .complete := by
  have hn : ¬ (c.fsm = .idle ∨ c.fsm = .dispatch ∨ c.fsm = .complete) := fun ht => by
    simp [running_eq_none_iff.2 ht] at h
  simpa [not_or] using hn

theorem notRunning_top {c : Control} (h : c.fsm = .idle ∨ c.fsm = .dispatch ∨ c.fsm = .complete) (w : CmdWord) :
    c.NotRunning w := by
  intro j w' hj
  simp [running_eq_none_iff.2 h] at hj

theorem request_idle {s : State} (h : s.ctl.fsm = .idle) (w : CmdWord) : s.request w = .next (s.accept w) := by
  rcases request_cases s w with ⟨_, hr⟩ | ⟨hn, _⟩
  · exact hr
  · contradiction

theorem request_of_ne_idle {s : State} (h : s.ctl.fsm ≠ .idle) (w : CmdWord) :
    s.request w = .refused .requestWhileRunning := by
  rcases request_cases s w with ⟨hs, _⟩ | ⟨_, hr⟩
  · contradiction
  · exact hr

/-- Settles O11: outside its own points an instruction of the host word layer is a request, and a request is accepted in
IDLE only. -/
theorem requestsOnlyInIdle : Obligations.RequestsOnlyInIdle := by
  refine ⟨fun i w s hi hs => ?_, fun i j w w' s hi hj hrun hop => ?_, fun i w s hi hs => ?_,
    fun w s hs => request_of_ne_idle hs w, fun w s hs => request_idle hs w⟩
  · rw [exec_eq_request hi (by simp [hs]) (notRunning_top (.inl hs) w)]
    exact request_idle hs w
  · obtain ⟨hidle, hdispatch, _⟩ := not_dispatch_of_running hrun
    have hr : s.ctl.NotRunning w := fun j' w'' hj' he => by
      cases hrun.symm.trans hj'
      cases hj.symm.trans he
      exact hop
    rw [exec_eq_request hi hdispatch hr]
    exact request_of_ne_idle hidle w
  · rw [exec_eq_request hi (by simp [hs]) (notRunning_top (.inr (.inr hs)) w)]
    exact request_of_ne_idle (by simp [hs]) w

/-! ### DISPATCH -/

/-- The configuration byte of `ARG8` is that of its bits 0, 2 and 3 (R107, R110). -/
theorem configByte_configFlags (a : Byte) :
    configByte (configFlags a) = cfgEncode (a.getLsbD 0) (a.getLsbD 2) (a.getLsbD 3) := by
  have hflags : configFlags a =
      BitVec.ofBool (a.getLsbD 3) ++ BitVec.ofBool (a.getLsbD 2) ++ 0#1 ++ BitVec.ofBool (a.getLsbD 0) := by
    apply BitVec.eq_of_getLsbD_eq
    intro i hi
    unfold configFlags
    interval_cases i <;> simp <;> grind
  rw [hflags, cfgEncode]

/-- Settles O12: each operation's case of DISPATCH. -/
theorem dispatchEntersTheOperation : Obligations.DispatchEntersTheOperation := by
  intro a s hs at'
  refine ⟨?_, ?_, ?_, ?_, ?_, ?_, ?_, ?_, ?_, ?_, ?_, ?_, ?_⟩
  · simp only [exec, execOwReset, hs]; rfl
  · simp only [exec, execBusyWait, hs]; rfl
  · simp only [exec, execReadReg, hs]; rfl
  · simp only [exec, execWriteByte, hs]; rfl
  · simp only [exec, execReadByte, hs]; rfl
  · simp only [exec, execTriplet, hs]; rfl
  · simp only [exec, execDevReset, hs]; rfl
  · simp only [exec, execCfgWrite, hs, configByte_configFlags]; rfl
  · simp only [exec, execSearchFirst, hs]; rfl
  · simp only [exec, execSearchNext, hs]; rfl
  · simp only [exec, execEnumerate, hs]; rfl
  · simp only [exec, execRegLookup, hs]; rfl
  · simp only [exec, execRegGetall, hs]; rfl

/-! ### Power-on -/

/-- Settles O57: at power-on the registry is clear, the Search State empty, no operation runs and no poll has begun. -/
theorem powerOnMeetsTheInvariants : Obligations.PowerOnMeetsTheInvariants :=
  ⟨⟨State.reset.registry.clear_wf, nofun⟩, (Control.OutsideStep.searchOk_iff (.inl rfl)).2 State.reset.search.reset_legal,
    trivial, trivial, le_rfl⟩

/-! ### Runs -/

theorem Reaches.refl (s : State) : Reaches s s := ⟨0, rfl⟩

theorem run_succ_of_step {M : Host.Core} {s t : M.State} (h : M.step s = .next t) (k : Nat) :
    M.run (k + 1) s = M.run k t := by
  rw [Host.Core.run, h]

theorem Reaches.head {s t u : State} (h : step s = .next t) (htu : Reaches t u) : Reaches s u := by
  obtain ⟨k, hk⟩ := htu
  exact ⟨k + 1, (run_succ_of_step (M := Sys2Proof.core) h k).trans hk⟩

/-- COMPLETE is one step from IDLE (R34). -/
theorem reaches_retire {s : State} (h : s.ctl.fsm = .complete) : Reaches s s.retire := by
  refine .head ?_ (.refl _)
  rw [step_top (.inr h), rest_of_ne_idle (by simp [h])]

/-! ### `REG_GETALL` (R223) -/

theorem execRegGetall_scan (a : Byte) {s : State} (h : s.ctl.fsm = .regGetall .gScan) :
    exec (.regGetall a) s = .next (s.goto (.regGetall .gDone)) := by
  simp only [exec, execRegGetall, h]

theorem execRegGetall_done (a : Byte) {s : State} (h : s.ctl.fsm = .regGetall .gDone) :
    exec (.regGetall a) s =
      .next ((s.setResCount (BitVec.ofNat 5 (s.registry.countUpTo (capacityOf a)))).finish .ok) := by
  simp only [exec, execRegGetall, h]

theorem step_regGetall {s : State} {p : ScanPt} (h : s.ctl.fsm = .regGetall p) : step s = exec (.regGetall s.ctl.arg) s :=
  step_of_fetched (fetched_running (by rw [Control.issuing, h]) (by rw [Control.running, h]))

/-- The count fits its register: no more than the registry's own count. -/
theorem Registry.countUpTo_toNat (r : Registry) (capacity : Nat) :
    (BitVec.ofNat 5 (r.countUpTo capacity)).toNat = r.countUpTo capacity := by
  have hle : r.countUpTo capacity ≤ r.count.toNat := Nat.min_le_left ..
  rw [BitVec.toNat_ofNat, Nat.mod_eq_of_lt (hle.trans_lt r.count.isLt)]

@[simp] theorem Registry.sequence_length (r : Registry) (capacity : Nat) :
    (r.sequence capacity).length = r.countUpTo capacity := by
  simp [Registry.sequence]

theorem Registry.sequence_getElem? (r : Registry) {capacity i : Nat} (h : i < r.countUpTo capacity) :
    (r.sequence capacity)[i]? = some (r.slot i) := by
  simp [Registry.sequence, h]

/-- Settles O45: four steps, through `G_SCAN`, `G_DONE` and COMPLETE; the count is written at `G_DONE`. -/
theorem getAllCountsTheSlots : Obligations.GetAllCountsTheSlots := by
  refine ⟨fun a s hs => execRegGetall_scan a hs, fun a s hs => execRegGetall_done a hs, fun a s hs => ?_⟩
  have hentered : step s = .next (s.enter a (.regGetall .gScan)) := by
    rw [step_of_dispatching hs]
    simp only [exec, execRegGetall, hs.1]
  let t₁ := s.enter a (.regGetall .gScan)
  let t₂ := t₁.goto (.regGetall .gDone)
  let n := BitVec.ofNat 5 (s.registry.countUpTo (capacityOf a))
  let t₃ := (t₂.setResCount n).finish .ok
  have hscanned : step t₁ = .next t₂ := (step_regGetall rfl).trans (execRegGetall_scan a rfl)
  have hdone : step t₂ = .next t₃ := (step_regGetall rfl).trans (execRegGetall_done a rfl)
  have hn : n.toNat = s.registry.countUpTo a.toNat := s.registry.countUpTo_toNat _
  refine ⟨t₃.retire, .head hentered (.head hscanned (.head hdone (reaches_retire rfl))), rfl, ⟨rfl, rfl, rfl, rfl⟩, rfl, n,
    rfl, hn, ?_, fun i hi => ?_⟩
  · rw [Registry.sequence_length, hn]
  · exact s.registry.sequence_getElem? (hn ▸ hi)

end Sys2Proof.Machine
end

/-! ## Identifiers, walk positions and host reads (R64, R65, R66) -/

section
namespace Sys2Proof.Machine

/-- Settles O46: the registry has 16 slots. -/
theorem hostSlotRead : Obligations.HostSlotRead := by
  intro i s
  have hN : Config.regN = 16 := rfl
  exact ⟨fun hi => if_pos hi, fun hi => if_neg (by omega)⟩

theorem romToId_injective : Function.Injective romToId := by
  intro r r' h
  refine Vector.ext fun i hi => BitVec.eq_of_getLsbD_eq fun j hj => ?_
  rw [← romToId_getLsbD r hi hj, ← romToId_getLsbD r' hi hj, h]

theorem idToRom_getElem (id : RomId) {i : Nat} (hi : i < 8) : (idToRom id)[i] = id.extractLsb' (8 * i) 8 := by
  unfold idToRom
  interval_cases i <;> rfl

theorem romToId_idToRom (id : RomId) : romToId (idToRom id) = id := by
  refine BitVec.eq_of_getLsbD_eq fun m hm => ?_
  obtain ⟨i, j, hi, hj, rfl⟩ : ∃ i j, i < 8 ∧ j < 8 ∧ m = 8 * i + j :=
    ⟨m / 8, m % 8, by omega, by omega, (Nat.div_add_mod m 8).symm⟩
  rw [romToId_getLsbD _ hi hj, idToRom_getElem id hi]
  simp [hj]

theorem romByte_eq_getElem (r : Rom) {i : Nat} (hi : i < 8) : romByte r i = r[i] := by
  simp [romByte, hi]

/-- Settles O7: the integer determines the buffer, and each byte of the buffer is a byte of the integer. -/
theorem identifierConversionIsLossless : Obligations.IdentifierConversionIsLossless :=
  ⟨fun _ => romToId_injective (romToId_idToRom _), romToId_idToRom,
    fun id _ hi => (romByte_eq_getElem _ hi).trans (idToRom_getElem id hi)⟩

/-- The mask of a position has the position's bit and no other (R65). -/
theorem maskOf_getLsbD (n j : Nat) : (maskOf n).getLsbD j = decide (j = (n - 1) % 8) := by
  have hk : (n - 1) % 8 < 8 := Nat.mod_lt _ (by decide)
  rw [maskOf, BitVec.getLsbD_shiftLeft, Bool.eq_iff_iff]
  simp
  omega

/-- Masking a byte with the mask of a position tests the position's bit. -/
theorem and_maskOf_ne_zero (b : Byte) (n : Nat) : (b &&& maskOf n != 0) = b.getLsbD ((n - 1) % 8) := by
  have hk : (n - 1) % 8 < 8 := Nat.mod_lt _ (by decide)
  rw [Bool.eq_iff_iff, bne_iff_ne]
  constructor
  · intro h
    by_contra hb
    refine h (BitVec.eq_of_getLsbD_eq fun j _ => ?_)
    rw [BitVec.getLsbD_and, maskOf_getLsbD]
    by_cases hj : j = (n - 1) % 8
    · simpa [hj] using hb
    · simp [hj]
  · intro hb h0
    have hbit := congrArg (BitVec.getLsbD · ((n - 1) % 8)) h0
    simp [maskOf_getLsbD, hb] at hbit

/-- Settles O8: byte `(n - 1) / 8` of the buffer holds the position, at bit `(n - 1) % 8`. -/
theorem walkPositionIsIdentifierBit : Obligations.WalkPositionIsIdentifierBit := by
  intro r n h1 h64
  have hi : (n - 1) / 8 < 8 := by omega
  rw [romBit, byteIdxOf, romByte_eq_getElem r hi, and_maskOf_ne_zero, ← romToId_getLsbD r hi (Nat.mod_lt _ (by decide)),
    Nat.div_add_mod]

/-- A byte with the bit of a position written (R191). -/
theorem writeMasked_getLsbD (b : Byte) (n : Nat) (w : Bool) {j : Nat} (hj : j < 8) :
    (if w then b ||| maskOf n else b &&& ~~~maskOf n).getLsbD j = if j = (n - 1) % 8 then w else b.getLsbD j := by
  cases w
  · rw [if_neg Bool.false_ne_true, BitVec.getLsbD_and, BitVec.getLsbD_not, maskOf_getLsbD]
    split <;> simp_all
  · rw [if_pos rfl, BitVec.getLsbD_or, maskOf_getLsbD]
    split <;> simp_all

/-- The store writes the bit of its position and no other (R191). -/
theorem romToId_romStore_getLsbD (r : Rom) {n : Nat} (h1 : 1 ≤ n) (h64 : n ≤ 64) (w : Bool) {m : Nat} (hm : m < 64) :
    (romToId (romStore r (byteIdxOf n) (maskOf n) w)).getLsbD m = if m = n - 1 then w else (romToId r).getLsbD m := by
  have hi : m / 8 < 8 := by omega
  have hj : m % 8 < 8 := Nat.mod_lt _ (by decide)
  have hn : (n - 1) / 8 < 8 := by omega
  have hsplit (x : Rom) : (romToId x).getLsbD m = x[m / 8].getLsbD (m % 8) := by
    rw [← romToId_getLsbD x hi hj, Nat.div_add_mod]
  rw [hsplit, hsplit, romStore, byteIdxOf, romByte_eq_getElem r hn, Vector.getElem_setIfInBounds]
  by_cases hbyte : (n - 1) / 8 = m / 8
  · have hpos : m % 8 = (n - 1) % 8 ↔ m = n - 1 := by omega
    simp only [hbyte, if_true, writeMasked_getLsbD _ n w hj, hpos]
  · rw [if_neg hbyte, if_neg (by omega)]

end Sys2Proof.Machine
end

/-! ## The reference environment, one command at a time (R82 to R88) -/

section
namespace Sys2Proof.Machine

/-! ### The status byte (R84, R86, R105) -/

/-- A bit of a byte that is there on a condition. -/
theorem getLsbD_ite_zero (p : Bool) (b : Byte) (i : Nat) : (if p then b else 0).getLsbD i = (p && b.getLsbD i) := by
  cases p <;> simp

/-- Every bit of the status byte a triplet leaves. -/
theorem withTripletBits_getLsbD (status : Byte) (b c w : Bool) (i : Nat) : (withTripletBits status b c w).getLsbD i =
    (status.getLsbD i && (0x1F : Byte).getLsbD i || b && (0x20 : Byte).getLsbD i || c && (0x40 : Byte).getLsbD i ||
      w && (0x80 : Byte).getLsbD i) := by
  simp only [withTripletBits, BitVec.getLsbD_or, BitVec.getLsbD_and, getLsbD_ite_zero]

theorem sbr_withTripletBits (status : Byte) (b c w : Bool) : sbr (withTripletBits status b c w) = b := by
  rw [sbr, withTripletBits_getLsbD]
  simp

theorem tsb_withTripletBits (status : Byte) (b c w : Bool) : tsb (withTripletBits status b c w) = c := by
  rw [tsb, withTripletBits_getLsbD]
  simp

theorem dir_withTripletBits (status : Byte) (b c w : Bool) : dir (withTripletBits status b c w) = w := by
  rw [dir, withTripletBits_getLsbD]
  simp

theorem withTripletBits_getLsbD_low (status : Byte) (b c w : Bool) {i : Nat} (hi : i < 5) :
    (withTripletBits status b c w).getLsbD i = status.getLsbD i := by
  rw [withTripletBits_getLsbD]
  interval_cases i <;> simp

theorem withPresence_getLsbD_eq (status : Byte) (p : Bool) (i : Nat) : (withPresence status p).getLsbD i =
    (status.getLsbD i && (0xFD : Byte).getLsbD i || p && (0x02 : Byte).getLsbD i) := by
  simp only [withPresence, BitVec.getLsbD_or, BitVec.getLsbD_and, getLsbD_ite_zero]

theorem ppd_withPresence (status : Byte) (p : Bool) : ppd (withPresence status p) = p := by
  rw [ppd, withPresence_getLsbD_eq]
  simp

theorem withPresence_getLsbD (status : Byte) (p : Bool) {i : Nat} (hi : i ≠ 1) :
    (withPresence status p).getLsbD i = status.getLsbD i := by
  rw [withPresence_getLsbD_eq]
  by_cases h8 : i < 8
  · interval_cases i <;> simp_all
  · rw [BitVec.getLsbD_of_ge status i (by omega), BitVec.getLsbD_of_ge 0x02 i (by omega)]
    simp

/-! ### What E_IDEAL does with a frame (R83 to R87) -/

variable (e : Ideal)

/-- The search command, received in mode idle, begins a search at position 1 (R85). -/
theorem Ideal.writeByte_search (h : e.mode = .idle) :
    e.writeByte searchCommand = { e with mode := .search, pos := 1, ptr := statusPtr } :=
  if_pos ⟨h, rfl⟩

/-- Another byte leaves the search as it is (R85). -/
theorem Ideal.writeByte_of_ne {v : Byte} (h : v ≠ searchCommand) : e.writeByte v = { e with ptr := statusPtr } :=
  if_neg fun hv => h hv.2

/-- Settles O58: the status byte holds the two wired bits and the written direction, which also says who stays active. -/
theorem idealTripletTable : Obligations.IdealTripletTable := by
  intro e d hplain e'
  have hread : e.readBits = wiredBits e.active e.pos := by simp [Ideal.readBits, hplain]
  have hb : sbr e'.status = e.active.all (deviceBit e.pos ·) := by
    simp only [e', Ideal.triplet, hread, wiredBits, sbr_withTripletBits]
  have hc : tsb e'.status = e.active.all (!deviceBit e.pos ·) := by
    simp only [e', Ideal.triplet, hread, wiredBits, tsb_withTripletBits]
  have hw : dir e'.status = writtenDirection (sbr e'.status) (tsb e'.status) d := by
    rw [hb, hc]
    simp only [e', Ideal.triplet, hread, wiredBits, dir_withTripletBits]
  have hactive : e'.active = e.active.filter (deviceBit e.pos · == dir e'.status) := by
    rw [hw, hb, hc]
    simp only [e', Ideal.triplet, hread, wiredBits]
  refine ⟨?_, ?_, ?_, fun i hi => withTripletBits_getLsbD_low _ _ _ _ hi, fun x => ?_, rfl, rfl⟩
  · simp [hb, deviceBit]
  · simp [hc, deviceBit]
  · rw [hw, writtenDirection]
    by_cases h : sbr e'.status = tsb e'.status <;> simp [h]
  · rw [hactive, List.mem_filter, beq_iff_eq, deviceBit]

/-- What E_IDEAL answers when this register is selected (R83). -/
def Ideal.reads (e : Ideal) (p : Byte) : Byte := ({ e with ptr := p } : Ideal).answer

theorem Ideal.reads_status_plain {e : Ideal} (h : e.variant = .plain) : e.reads statusPtr = e.status := by
  simp [Ideal.reads, Ideal.answer, h]

theorem Ideal.reads_status_stuck {e : Ideal} (h : e.variant = .stuck) : e.reads statusPtr = e.status ||| 0x01 := by
  simp [Ideal.reads, Ideal.answer, h]

theorem Ideal.reads_status_stuck_busy {e : Ideal} (h : e.variant = .stuck) : busy (e.reads statusPtr) = true := by
  simp [Ideal.reads_status_stuck h, busy]

theorem Ideal.reads_status_low {e : Ideal} (h : e.variant = .low) : e.reads statusPtr = e.status ||| 0x02 := by
  simp [Ideal.reads, Ideal.answer, h]

theorem Ideal.reads_status_low_ppd {e : Ideal} (h : e.variant = .low) : ppd (e.reads statusPtr) = true := by
  simp [Ideal.reads_status_low h, ppd]

theorem Ideal.reads_config_plain {e : Ideal} (h : e.variant = .plain) : e.reads configPtr = e.config := by
  simp [Ideal.reads, Ideal.answer, h, statusPtr, configPtr]

theorem Ideal.reads_config_badCfg {e : Ideal} {v : Byte} (h : e.variant = .badCfg v) : e.reads configPtr = v := by
  simp [Ideal.reads, Ideal.answer, h, statusPtr, configPtr]

theorem Ideal.reads_data (e : Ideal) : e.reads dataPtr = e.data := by
  simp [Ideal.reads, Ideal.answer, statusPtr, configPtr, dataPtr]

theorem Ideal.reads_other (e : Ideal) {p : Byte} (hs : p ≠ statusPtr) (hc : p ≠ configPtr) (hd : p ≠ dataPtr) :
    e.reads p = 0x00 := by
  simp [Ideal.reads, Ideal.answer, hs, hc, hd]

/-- One bit of a byte set (R88: what the variants make of a status read). -/
theorem getLsbD_or_bit (b : Byte) {i k : Nat} (h : i ≠ k) : (b ||| 1#8 <<< k).getLsbD i = b.getLsbD i := by
  rw [BitVec.getLsbD_or, BitVec.getLsbD_shiftLeft]
  simp
  omega

/-- Settles O59: a read after a selection is a read of the selected register; the other commands are the cases of
`Ideal.receive`. -/
theorem idealCommands : Obligations.IdealCommands := by
  refine ⟨fun e v hplain => ⟨?_, ?_, ?_, fun hs hc hd => ?_, rfl, rfl, ?_, fun i hi => withPresence_getLsbD _ _ hi,
    fun hidle => ?_, fun hv => ?_, rfl, rfl, rfl, rfl⟩, fun e h => ⟨?_, fun i hi => ?_⟩, fun e h => ⟨?_, fun i hi => ?_⟩,
    fun e v h => Ideal.reads_config_badCfg h⟩
  · exact Ideal.reads_status_plain hplain
  · exact Ideal.reads_config_plain hplain
  · exact e.reads_data
  · exact e.reads_other hs hc hd
  · have hppd : ppd (e.receive ⟨0xB4, none⟩).status = !e.devices.isEmpty := ppd_withPresence _ _
    rw [hppd]
    simp
  · have hsearch : e.receive ⟨0xA5, some 0xF0⟩ = _ := e.writeByte_search hidle
    exact hsearch ▸ ⟨rfl, rfl⟩
  · have hother : e.receive ⟨0xA5, some v⟩ = _ := e.writeByte_of_ne hv
    exact hother ▸ ⟨rfl, rfl⟩
  · exact Ideal.reads_status_stuck_busy h
  · exact (congrArg (BitVec.getLsbD · i) (Ideal.reads_status_stuck h)).trans (getLsbD_or_bit (k := 0) _ hi)
  · exact Ideal.reads_status_low_ppd h
  · exact (congrArg (BitVec.getLsbD · i) (Ideal.reads_status_low h)).trans (getLsbD_or_bit (k := 1) _ hi)
end Sys2Proof.Machine
end

/-! ## Runs of the sub-machines

A run is a chain of program points; a sub-machine's run inside a caller is the caller's. In E_IDEAL the runs of a poll and of a
command are known: one sample when the condition holds, as many as the budget has ticks when it never does. -/

section
namespace Sys2Proof.Machine
open Relation (ReflTransGen)

/-! ### Runs -/

/-- A sub-machine goes from one point to another, with what the first point does to the state it works on. -/
def Moves {π ρ σ : Type} (point : π → σ → σ × Flow π ρ) (a b : π × σ) : Prop := point a.1 a.2 = (b.2, .goto b.1)

/-- A sub-machine, run from this point, returns this result and leaves this state. -/
def Returns {π ρ σ : Type} (point : π → σ → σ × Flow π ρ) (a : π × σ) (r : ρ) (y : σ) : Prop :=
  ∃ b, ReflTransGen (Moves point) a b ∧ point b.1 b.2 = (y, .done r)

/-- A run of a sub-machine inside its caller: the caller does at each point what the sub-machine does, and goes on where the
sub-machine returns. -/
theorem Returns.lift {π ρ σ β : Type} {point : π → σ → σ × Flow π ρ} {a : π × σ} {r : ρ} {y : σ} {R : β → β → Prop}
    {f : π × σ → β} {b : β} (h : Returns point a r y) (hmove : ∀ a b, Moves point a b → R (f a) (f b))
    (hdone : ∀ p x, point p x = (y, .done r) → R (f (p, x)) b) : ReflTransGen R (f a) b := by
  obtain ⟨c, hac, hc⟩ := h
  exact (hac.lift f hmove).tail (hdone c.1 c.2 hc)

/-- A run of a sub-machine inside a sub-machine that works on the same state. -/
theorem Returns.within {π ρ π' ρ' σ : Type} {inner : π → σ → σ × Flow π ρ} {outer : π' → σ → σ × Flow π' ρ'}
    {call : π → π'} {ret : ρ → Flow π' ρ'} {p : π} {q : π'} {r : ρ} {x y : σ} (h : Returns inner (p, x) r y)
    (hcall : ∀ p x, outer (call p) x = ((inner p x).1, (inner p x).2.within call ret)) (hret : ret r = .goto q) :
    ReflTransGen (Moves outer) (call p, x) (q, y) := by
  refine h.lift (f := fun a => (call a.1, a.2)) (fun a b hab => ?_) fun p x hp => ?_
  · have hab : inner a.1 a.2 = (b.2, .goto b.1) := hab
    simp [Moves, hcall, hab]
  · simp [Moves, hcall, hp, hret]

/-- One step of the machine. -/
def Next (s t : State) : Prop := step s = .next t

/-- Steps into COMPLETE, and the one to IDLE (R34). -/
theorem reaches_retire_of_steps {s t : State} (h : ReflTransGen Next s t) (ht : t.ctl.fsm = .complete) :
    Reaches s t.retire := by
  induction h using ReflTransGen.head_induction_on with
  | refl => exact reaches_retire ht
  | head hstep _ ih => exact ih.head hstep

/-! ### E_IDEAL seen through the link -/

/-- The environment is E_IDEAL in this state, its tick source at `t` and its read pointer anywhere. -/
def Link.OnAt (l : Link) (e : Ideal) (t : Nat) : Prop := ∃ p, l.env = .ideal { e with t := t, ptr := p }

/-- The environment is E_IDEAL in this state, its tick source and read pointer aside. -/
def Link.On (l : Link) (e : Ideal) : Prop := ∃ t, l.OnAt e t

theorem Link.on_of_env {l : Link} {e : Ideal} (h : l.env = .ideal e) : l.On e := ⟨e.t, e.ptr, h⟩

/-- A status read (R150, R151). -/
def Link.sample (l : Link) : Link := (l.write (selectFrame statusPtr)).read statusPtr

section
variable {l : Link} {e : Ideal} {t : Nat}

theorem Link.OnAt.sample (h : l.OnAt e t) : l.sample.OnAt e t := by
  obtain ⟨p, henv⟩ := h
  refine ⟨statusPtr, ?_⟩
  simp only [Link.sample, Link.read_env, Link.write_env, henv]
  rfl

theorem Link.OnAt.sample_snap (h : l.OnAt e t) : l.sample.snap = e.reads statusPtr := by
  obtain ⟨p, henv⟩ := h
  simp only [Link.sample, Link.read_snap, Link.write_env, henv]
  rfl

theorem Link.OnAt.now (h : l.OnAt e t) : l.now = t := by
  obtain ⟨p, henv⟩ := h
  rw [Link.now, henv]
  rfl

theorem Link.OnAt.tick (h : l.OnAt e t) : l.tick.OnAt e (t + e.tickStep) := by
  obtain ⟨p, henv⟩ := h
  refine ⟨p, ?_⟩
  rw [Link.tick_env, henv]
  rfl

theorem Link.OnAt.startPoll (h : l.OnAt e t) : l.startPoll.OnAt e (t + e.tickStep) := h.tick

end

/-! ### Waiting -/

/-- The trace has grown by this many events, and no frame was sent but selections of the status register. -/
def Link.Waits (l : Link) (n : Nat) (l' : Link) : Prop :=
  ∃ new, l'.trace = new ++ l.trace ∧ new.length = n ∧ ∀ f, sent f ∈ new → f = selectFrame statusPtr

theorem Link.Waits.trans {l l' l'' : Link} {m n : Nat} (h : l.Waits m l') (h' : l'.Waits n l'') : l.Waits (m + n) l'' := by
  obtain ⟨new, htrace, rfl, hsent⟩ := h
  obtain ⟨new', htrace', rfl, hsent'⟩ := h'
  refine ⟨new' ++ new, by simp [htrace', htrace], by simp [Nat.add_comm], fun f hf => ?_⟩
  exact (List.mem_append.1 hf).elim (hsent' f) (hsent f)

theorem Link.startPoll_waits (l : Link) : l.Waits 1 l.startPoll := ⟨[_], rfl, rfl, by simp [sent]⟩

theorem Link.tick_waits (l : Link) : l.Waits 1 l.tick := ⟨[_], rfl, rfl, by simp [sent]⟩

theorem Link.sample_waits (l : Link) : l.Waits 2 l.sample := ⟨[_, _], rfl, rfl, by simp [sent]⟩

/-! ### Polls (R152) -/

section
variable {c : Cond} {T : Nat} {l : Link} {e : Ideal}

/-- From the start of a sample to its test. -/
theorem poll_samples (c : Cond) (T : Nat) (l : Link) :
    ReflTransGen (Moves (pollPoint c T)) (.pSample .rrSel, l) (.pTest, l.sample) := by
  have hselect : Moves (pollPoint c T) (.pSample .rrSel, l) (.pSample .rrRd, l.write (selectFrame statusPtr)) := rfl
  exact .head hselect (.single rfl)

/-- A poll whose condition holds on the first sample returns at once, without a time test. -/
theorem poll_returns_ok (h : l.On e) (hc : c.holds (e.reads statusPtr) = true) :
    ∃ l', Returns (pollPoint c T) (.pT0, l) .ok l' ∧ l'.On e ∧ l'.snap = e.reads statusPtr := by
  obtain ⟨t, hat⟩ := h
  have hsnap := hat.startPoll.sample_snap
  have hstart : Moves (pollPoint c T) (.pT0, l) (.pSample .rrSel, l.startPoll) := rfl
  have htest : Moves (pollPoint c T) (.pTest, l.startPoll.sample) (.pOk, l.startPoll.sample) := by
    simp [Moves, pollPoint, hsnap, hc]
  exact ⟨l.startPoll.sample, ⟨_, .head hstart ((poll_samples c T _).tail htest), rfl⟩, ⟨_, hat.startPoll.sample⟩, hsnap⟩

/-- One round of a poll whose condition does not hold: a sample, then a tick, which ends the poll or begins a round. -/
theorem poll_round {t : Nat} (hat : l.OnAt e t) (hc : c.holds (e.reads statusPtr) = false) :
    ReflTransGen (Moves (pollPoint c T)) (.pSample .rrSel, l)
      (if expired l.t0 t T then .pTimeout else .pSample .rrSel, l.sample.tick) := by
  have htest : Moves (pollPoint c T) (.pTest, l.sample) (.pTime, l.sample) := by
    simp [Moves, pollPoint, hat.sample_snap, hc]
  have htime : Moves (pollPoint c T) (.pTime, l.sample)
      (if expired l.t0 t T then .pTimeout else .pSample .rrSel, l.sample.tick) := by
    rw [← hat.sample.now]
    rfl
  exact ((poll_samples c T l).tail htest).tail htime

/-- A poll whose condition never holds goes on until its budget is used up: with `n` ticks of it left, `n + 1` rounds. -/
theorem poll_expires {n t : Nat} (hat : l.OnAt e t) (htick : e.tickStep = 1) (hc : c.holds (e.reads statusPtr) = false)
    (ht0 : l.t0 ≤ t) (hn : T - (t - l.t0) = n) :
    ∃ l', ReflTransGen (Moves (pollPoint c T)) (.pSample .rrSel, l) (.pTimeout, l') ∧ l'.On e ∧
      l'.snap = e.reads statusPtr ∧ l.Waits (3 * (n + 1)) l' := by
  have hround := poll_round (T := T) hat hc
  have hwaits : l.Waits 3 l.sample.tick := l.sample_waits.trans l.sample.tick_waits
  have hat' : l.sample.tick.OnAt e (t + 1) := htick ▸ hat.sample.tick
  induction n generalizing l t with
  | zero =>
    have hexp : expired l.t0 t T = true := decide_eq_true (by omega)
    rw [hexp] at hround
    exact ⟨l.sample.tick, hround, ⟨_, hat'⟩, hat.sample_snap, hwaits⟩
  | succ n ih =>
    have hexp : expired l.t0 t T = false := decide_eq_false (by omega)
    rw [hexp] at hround
    have ht0' : l.sample.tick.t0 ≤ t + 1 := Nat.le_succ_of_le ht0
    have hn' : T - (t + 1 - l.sample.tick.t0) = n := by
      show T - (t + 1 - l.t0) = n
      omega
    obtain ⟨l', hrun, hon, hsnap, hw⟩ := ih hat' ht0' hn' (poll_round hat' hc)
      (l.sample.tick.sample_waits.trans l.sample.tick.sample.tick_waits) (htick ▸ hat'.sample.tick)
    have hlength : 3 + 3 * (n + 1) = 3 * (n + 1 + 1) := by omega
    exact ⟨l', hround.trans hrun, hon, hsnap, hlength ▸ hwaits.trans hw⟩

/-- A poll whose condition never holds times out after one sample for each tick of its budget, and after one with a budget
of 0. -/
theorem poll_returns_timeout (hon : l.On e) (htick : e.tickStep = 1) (hc : c.holds (e.reads statusPtr) = false) :
    ∃ l', Returns (pollPoint c T) (.pT0, l) .timeout l' ∧ l'.On e ∧ l'.snap = e.reads statusPtr ∧
      l.Waits (3 * max T 1 + 1) l' := by
  obtain ⟨t, hat⟩ := hon
  have ht0 : l.startPoll.t0 = t := hat.now
  have hstart : Moves (pollPoint c T) (.pT0, l) (.pSample .rrSel, l.startPoll) := rfl
  have hleft : T - (t + 1 - l.startPoll.t0) = T - 1 := by omega
  obtain ⟨l', hrun, hon', hsnap, hw⟩ := poll_expires (htick ▸ hat.startPoll) htick hc (by omega) hleft
  have hlength : 1 + 3 * (T - 1 + 1) = 3 * max T 1 + 1 := by omega
  exact ⟨l', ⟨_, .head hstart hrun, rfl⟩, hon', hsnap, hlength ▸ l.startPoll_waits.trans hw⟩

end

/-! ### Commands (R154) -/

/-- The bytes of a frame are a bridge command (R101, R114). -/
def Decodes (f : Frame) : Prop := ∃ i, decodeFrame f = .ok i

section
variable {l : Link} {e e' : Ideal} {cmd : Frame}

/-- A command to a bridge that is idle before it and after it is sent between two waits of one sample. -/
theorem cmd_returns_ok (hon : l.On e) (hidle : busy (e.reads statusPtr) = false)
    (hcmd : ∀ l : Link, l.On e → (l.write cmd).On e') (hidle' : busy (e'.reads statusPtr) = false) :
    ∃ l', Returns (cmdPoint cmd) (.cPre .pT0, l) .ok l' ∧ l'.On e' ∧ l'.snap = e'.reads statusPtr := by
  obtain ⟨l₁, hpre, hon₁, _⟩ := poll_returns_ok (c := .notBusy) (T := Config.tBusy) hon (by simp [Cond.holds, hidle])
  obtain ⟨l₂, hpost, hon₂, hsnap⟩ :=
    poll_returns_ok (c := .notBusy) (T := Config.tBusy) (hcmd l₁ hon₁) (by simp [Cond.holds, hidle'])
  have hpre' : ReflTransGen (Moves (cmdPoint cmd)) (.cPre .pT0, l) (.cIssue, l₁) :=
    hpre.within (fun _ _ => rfl) rfl
  have hissue : Moves (cmdPoint cmd) (.cIssue, l₁) (.cPost .pT0, l₁.write cmd) := rfl
  have hpost' : ReflTransGen (Moves (cmdPoint cmd)) (.cPost .pT0, l₁.write cmd) (.cOk, l₂) :=
    hpost.within (fun _ _ => rfl) rfl
  exact ⟨l₂, ⟨_, (hpre'.tail hissue).trans hpost', rfl⟩, hon₂, hsnap⟩

/-- A command to a bridge that stays busy times out in its pre-wait and is not sent (R241). -/
theorem cmd_returns_timeout (hon : l.On e) (htick : e.tickStep = 1) (hbusy : busy (e.reads statusPtr) = true) :
    ∃ l', Returns (cmdPoint cmd) (.cPre .pT0, l) .timeout l' ∧ l.Waits (3 * Config.tBusy + 1) l' := by
  obtain ⟨l', hpre, _, _, hwaits⟩ :=
    poll_returns_timeout (c := .notBusy) (T := Config.tBusy) hon htick (by simp [Cond.holds, hbusy])
  have hpre' : ReflTransGen (Moves (cmdPoint cmd)) (.cPre .pT0, l) (.cFail, l') :=
    hpre.within (fun _ _ => rfl) rfl
  have hbudget : max Config.tBusy 1 = Config.tBusy := max_eq_left (Nat.le_add_left 1 _)
  exact ⟨l', ⟨_, hpre', rfl⟩, hbudget ▸ hwaits⟩
end

end Sys2Proof.Machine
end

/-! ## Operations against E_STUCK (R88, R152 to R160) -/

section
namespace Sys2Proof.Machine
open Relation (ReflTransGen)

/-! ### Sending -/

theorem selectFrame_decodes (p : Byte) : Decodes (selectFrame p) := ⟨.brSetReadPointer p, rfl⟩

theorem PollPt.decodes_of_issuing {p : PollPt} {f : Frame} (h : p.issuing = some f) : Decodes f := by
  cases p with
  | pSample r =>
    cases r <;> cases h
    exact selectFrame_decodes _
  | pT0 | pTest | pTime | pOk | pTimeout => cases h

theorem CmdPt.decodes_of_issuing {cmd : Frame} (hcmd : Decodes cmd) {p : CmdPt} {f : Frame}
    (h : p.issuing cmd = some f) : Decodes f := by
  cases p with
  | cPre q | cPost q => exact PollPt.decodes_of_issuing h
  | cIssue => cases h; exact hcmd
  | cOk | cFail => cases h

theorem ResetPt.decodes_of_issuing {p : ResetPt} {f : Frame} (h : p.issuing = some f) : Decodes f := by
  cases p with
  | brPpd q | brBusy q => exact PollPt.decodes_of_issuing h
  | brIssue => cases h; exact ⟨.brBusReset, rfl⟩
  | brTrue | brFalse => cases h

/-- A step at a point of an operation does what the operation does there, if what it may send is a bridge command. -/
theorem step_running {s : State} {i : Instr} (hi : s.ctl.running = some i)
    (hsend : ∀ f, s.ctl.issuing = some f → Decodes f) : step s = exec i s := by
  rcases hf : s.ctl.issuing with _ | f
  · exact step_of_fetched (fetched_running hf hi)
  · obtain ⟨j, hj⟩ := hsend f hf
    rw [step_of_fetched ((fetched_issuing hf).trans (congrArg some hj)), exec_running_of_issuing hf hi]
    exact exec_eq_issue_of_linkFrame (linkFrame_of_decodeFrame hj) s

/-! ### `BUSY_WAIT` (R153) -/

section
variable {s : State} {T : Nat} {stay : PollPt → Fsm} {ok timeout : State → State}

theorem callPoll_goto {p q : PollPt} {l : Link} (h : pollPoint .notBusy T p s.link = (l, .goto q)) :
    s.callPoll T p stay ok timeout = (s.withLink l).goto (stay q) := by
  simp [State.callPoll, h]

theorem callPoll_timeout {p : PollPt} {l : Link} (h : pollPoint .notBusy T p s.link = (l, .done .timeout)) :
    s.callPoll T p stay ok timeout = timeout (s.withLink l) := by
  simp [State.callPoll, h]

end

theorem step_busyWait (s : State) (p : PollPt) :
    step (s.goto (.busyWait p)) = .next ((s.goto (.busyWait p)).callPoll (timeoutOf s.ctl.arg) p .busyWait
      (fun t => (t.setResByte t.link.snap).finish .ok) fun t => (t.setResByte t.link.snap).raise .timeout .busyWait) :=
  step_running (s := s.goto (.busyWait p)) rfl fun _ hf => PollPt.decodes_of_issuing (p := p) hf

/-- Settles O26: the poll's budget of `ARG8` ticks is used up, one sample a tick. -/
theorem stuckBusyWaitTimesOutOnTime : Obligations.StuckBusyWaitTimesOutOnTime := by
  intro a s devices hs hideal
  obtain ⟨e, henv, hstuck, _, htick, _⟩ := hideal
  have hbusy := Ideal.reads_status_stuck_busy hstuck
  obtain ⟨l, hpoll, _, hsnap, new, htrace, hlength, _⟩ :=
    poll_returns_timeout (c := .notBusy) (T := timeoutOf a) (Link.on_of_env henv) htick (by simp [Cond.holds, hbusy])
  let u := s.enter a (.busyWait .pT0)
  have hentered : step s = .next u := by
    rw [step_of_dispatching hs]
    simp only [exec, execBusyWait, hs.1, u]
  let t := ((u.withLink l).setResByte l.snap).raise .timeout .busyWait
  have hrun : ReflTransGen Next u t := by
    refine hpoll.lift (f := fun b => (u.withLink b.2).goto (.busyWait b.1)) (fun b b' hb => ?_) fun p x hp => ?_
    · rw [Next, step_busyWait]
      exact congrArg Host.Outcome.next (callPoll_goto hb)
    · rw [Next, step_busyWait]
      exact congrArg Host.Outcome.next (callPoll_timeout hp)
  have hbyte : busy t.port.resByte = true := (congrArg busy hsnap).trans hbusy
  exact ⟨t.retire, new, reaches_retire_of_steps (.head hentered hrun) rfl, rfl, rfl, hbyte, rfl, rfl, ⟨rfl, rfl, rfl, rfl⟩,
    htrace, hlength⟩

/-! ### The operations that are a command (R154, R156 to R160) -/

/-- The instruction is the operation `o` with the operand `a`, one command with the frame `cmd`: control is at `stay` of the
points of the `Cmd` call, and `ok` follows the call. -/
structure CommandOp (i : Instr) (a : Byte) (o : Op) (stay : CmdPt → Fsm) (cmd : Frame) (ok : State → State) : Prop where
  decodes : Decodes cmd
  timeout : Failure.seenBy .timeout o = .timeout
  enters : ∀ s : State, s.ctl.fsm = .dispatch → exec i s = .next ((s.enter a (stay (.cPre .pT0))).loadCmd cmd)
  calls : ∀ (s : State) (p : CmdPt), exec i (s.goto (stay p)) = .next ((s.goto (stay p)).callCmd o p stay ok)
  running : ∀ (s : State) (p : CmdPt), s.ctl.arg = a → (s.goto (stay p)).ctl.running = some i
  issuing : ∀ (s : State) (p : CmdPt), (s.goto (stay p)).ctl.issuing = p.issuing s.ctl.cmd

/-- The five operations that are a command. -/
theorem commandOp_of {i : Instr}
    (hi : ∃ a, i = .writeByte a ∨ i = .readByte a ∨ i = .triplet a ∨ i = .devReset a ∨ i = .cfgWrite a) :
    ∃ a o stay cmd ok, CommandOp i a o stay cmd ok := by
  obtain ⟨a, rfl | rfl | rfl | rfl | rfl⟩ := hi
  · refine ⟨a, .writeByte, .writeByte, writeByteFrame a, _, ⟨.brWriteByte a, rfl⟩, rfl, fun s hs => ?_, fun _ _ => rfl,
      fun s p h => h ▸ rfl, fun _ _ => rfl⟩
    simp only [exec, execWriteByte, hs]
  · refine ⟨a, .readByte, .readByte, readByteFrame, _, ⟨.brReadByte, rfl⟩, rfl, fun s hs => ?_, fun _ _ => rfl,
      fun s p h => h ▸ rfl, fun _ _ => rfl⟩
    simp only [exec, execReadByte, hs]
  · refine ⟨a, .triplet, .triplet, tripletFrame (tripletDirByte (directionOf a)), _, ⟨.brTriplet _, rfl⟩, rfl,
      fun s hs => ?_, fun _ _ => rfl, fun s p h => h ▸ rfl, fun _ _ => rfl⟩
    simp only [exec, execTriplet, hs]
  · refine ⟨a, .devReset, .devReset, deviceResetFrame, _, ⟨.brDeviceReset, rfl⟩, rfl, fun s hs => ?_, fun _ _ => rfl,
      fun s p h => h ▸ rfl, fun _ _ => rfl⟩
    simp only [exec, execDevReset, hs]
  · refine ⟨a, .cfgWrite, .cfgWrite, configWriteFrame (configByte (configFlags a)), _, ⟨.brConfigWrite _, rfl⟩, rfl,
      fun s hs => ?_, fun _ _ => rfl, fun s p h => h ▸ rfl, fun _ _ => rfl⟩
    simp only [exec, execCfgWrite, hs]

section
variable {s : State} {o : Op} {stay : CmdPt → Fsm} {ok : State → State}

theorem callCmd_goto {p q : CmdPt} {l : Link} (h : cmdPoint s.ctl.cmd p s.link = (l, .goto q)) :
    s.callCmd o p stay ok = (s.withLink l).goto (stay q) := by
  simp [State.callCmd, h]

theorem callCmd_timeout {p : CmdPt} {l : Link} (h : cmdPoint s.ctl.cmd p s.link = (l, .done .timeout)) :
    s.callCmd o p stay ok = (s.withLink l).raise .timeout o := by
  simp [State.callCmd, h]

end

/-- Settles O27: the pre-wait of `Cmd` times out before the issue point. -/
theorem stuckBridgeNeverGetsTheCommand : Obligations.StuckBridgeNeverGetsTheCommand := by
  intro i s devices hi hs hideal
  obtain ⟨e, henv, hstuck, _, htick, _⟩ := hideal
  obtain ⟨a, o, stay, cmd, ok, hop⟩ := commandOp_of hi
  obtain ⟨l, hcmd, new, htrace, hlength, hsent⟩ :=
    cmd_returns_timeout (cmd := cmd) (Link.on_of_env henv) htick (Ideal.reads_status_stuck_busy hstuck)
  let u := (s.enter a (stay (.cPre .pT0))).loadCmd cmd
  have hentered : step s = .next u := (step_of_dispatching hs).trans (hop.enters s hs.1)
  let t := (u.withLink l).raise .timeout o
  have hstep (l : Link) (p : CmdPt) : step ((u.withLink l).goto (stay p)) =
      .next (((u.withLink l).goto (stay p)).callCmd o p stay ok) := by
    rw [step_running (hop.running _ p rfl), hop.calls]
    intro f hf
    rw [hop.issuing] at hf
    exact CmdPt.decodes_of_issuing hop.decodes hf
  have hrun : ReflTransGen Next u t := by
    refine hcmd.lift (f := fun b => (u.withLink b.2).goto (stay b.1)) (fun b b' hb => ?_) fun p x hp => ?_
    · rw [Next, hstep]
      exact congrArg Host.Outcome.next (callCmd_goto hb)
    · rw [Next, hstep]
      exact congrArg Host.Outcome.next (callCmd_timeout hp)
  have hport : t.port = { s.port with resCode := .timeout } := by simp [t, hop.timeout, u]
  exact ⟨t.retire, new, reaches_retire_of_steps (.head hentered hrun) rfl, rfl, hport, ⟨rfl, rfl, rfl, rfl⟩, htrace,
    hlength, hsent⟩

end Sys2Proof.Machine
end

/-! ## The walk in terms of identifiers (R187 to R193, R198)

What one search step does to the identifier it builds, without the machine: which devices still take part, and which positions
were forks. -/

section
namespace Sys2Proof.Machine

/-! ### Walk order (R198) -/

/-- Two identifiers have the same bits at the first `k` positions. -/
def AgreeBelow (k : Nat) (x y : RomId) : Prop := ∀ m < k, x.getLsbD m = y.getLsbD m

/-- Two identifiers first differ at bit `k`, where the first has 0 and the second 1. -/
def ForksAt (k : Nat) (x y : RomId) : Prop := AgreeBelow k x y ∧ x.getLsbD k = false ∧ y.getLsbD k = true

theorem walkedBefore_iff {x y : RomId} : WalkedBefore x y ↔ ∃ k < 64, ForksAt k x y := Iff.rfl

theorem AgreeBelow.symm {k : Nat} {x y : RomId} (h : AgreeBelow k x y) : AgreeBelow k y x := fun m hm => (h m hm).symm

theorem AgreeBelow.trans {k : Nat} {x y z : RomId} (h : AgreeBelow k x y) (h' : AgreeBelow k y z) : AgreeBelow k x z :=
  fun m hm => (h m hm).trans (h' m hm)

theorem AgreeBelow.mono {j k : Nat} {x y : RomId} (h : AgreeBelow k x y) (hj : j ≤ k) : AgreeBelow j x y :=
  fun m hm => h m (hm.trans_le hj)

theorem agreeBelow_succ_iff {k : Nat} {x y : RomId} :
    AgreeBelow (k + 1) x y ↔ AgreeBelow k x y ∧ x.getLsbD k = y.getLsbD k := by
  unfold AgreeBelow
  rw [Nat.forall_lt_succ_right]

theorem eq_of_agreeBelow {x y : RomId} (h : AgreeBelow 64 x y) : x = y := BitVec.eq_of_getLsbD_eq h

/-- Two different identifiers fork one way or the other. -/
theorem forksAt_of_ne {x y : RomId} (h : x ≠ y) : ∃ k < 64, ForksAt k x y ∨ ForksAt k y x := by
  by_contra hno
  push Not at hno
  have hagree : ∀ k ≤ 64, AgreeBelow k x y := by
    intro k hk
    induction k with
    | zero => exact fun m hm => absurd hm (Nat.not_lt_zero m)
    | succ k ih =>
      obtain ⟨hxy, hyx⟩ := hno k hk
      have hk' := ih (by omega)
      refine agreeBelow_succ_iff.2 ⟨hk', ?_⟩
      rcases hx : x.getLsbD k <;> rcases hy : y.getLsbD k
      · rfl
      · exact absurd ⟨hk', hx, hy⟩ hxy
      · exact absurd ⟨hk'.symm, hy, hx⟩ hyx
      · rfl
  exact h (eq_of_agreeBelow (hagree 64 le_rfl))

/-- Forks in a chain: the order's transitivity, with the position of the fork. -/
theorem ForksAt.trans {j k : Nat} {x y z : RomId} (h : ForksAt j x y) (h' : ForksAt k y z) : ForksAt (min j k) x z := by
  obtain ⟨hagree, hx, hy⟩ := h
  obtain ⟨hagree', hy', hz⟩ := h'
  refine ⟨(hagree.mono (min_le_left j k)).trans (hagree'.mono (min_le_right j k)), ?_⟩
  rcases lt_trichotomy j k with hlt | rfl | hlt
  · rw [min_eq_left hlt.le]
    exact ⟨hx, (hagree' j hlt).symm.trans hy⟩
  · simp [hy] at hy'
  · rw [min_eq_right hlt.le]
    exact ⟨(hagree k hlt).trans hy', hz⟩

/-- The bits below position `k` decide a fork there. -/
theorem ForksAt.congr_left {j k : Nat} {x x' y : RomId} (h : ForksAt j x y) (hx : AgreeBelow k x' x) (hj : j < k) :
    ForksAt j x' y :=
  ⟨(hx.mono hj.le).trans h.1, (hx j hj).trans h.2.1, h.2.2⟩

theorem ForksAt.congr_right {j k : Nat} {x y y' : RomId} (h : ForksAt j x y) (hy : AgreeBelow k y y') (hj : j < k) :
    ForksAt j x y' :=
  ⟨h.1.trans (hy.mono hj.le), h.2.1, (hy j hj).symm.trans h.2.2⟩

/-- Two identifiers fork at one position only. -/
theorem ForksAt.unique {j k : Nat} {x y : RomId} (h : ForksAt j x y) (h' : ForksAt k x y) : j = k := by
  obtain ⟨hagree, h0, h1⟩ := h
  obtain ⟨hagree', h0', h1'⟩ := h'
  rcases lt_trichotomy j k with hlt | heq | hlt
  · simp [hagree' j hlt, h1] at h0
  · exact heq
  · simp [hagree k hlt, h1'] at h0'

theorem WalkedBefore.trans {x y z : RomId} (h : WalkedBefore x y) (h' : WalkedBefore y z) : WalkedBefore x z := by
  obtain ⟨j, hj, hxy⟩ := walkedBefore_iff.1 h
  obtain ⟨k, _, hyz⟩ := walkedBefore_iff.1 h'
  exact ⟨min j k, by omega, hxy.trans hyz⟩

theorem WalkedBefore.irrefl (x : RomId) : ¬ WalkedBefore x x := by
  rintro ⟨k, _, _, h0, h1⟩
  simp [h0] at h1

theorem WalkedBefore.ne {x y : RomId} (h : WalkedBefore x y) : x ≠ y := by
  rintro rfl
  exact WalkedBefore.irrefl x h

/-! ### The candidate of a walk -/

/-- A walk may turn at position `L`, counted from 1, after it found `r`: a device forks from `r` there. At 0 it does not turn. -/
def Turn (D : List RomId) (r : RomId) (L : Nat) : Prop := 1 ≤ L → ∃ y ∈ D, ForksAt (L - 1) r y

/-- `z` is the last position, counted from 1, at which the walk to `x` left a device behind on the 1 side; 0 if there is
none (R190). -/
structure LastFork (D : List RomId) (k : Nat) (x : RomId) (z : Nat) : Prop where
  le : z ≤ k
  fork : Turn D x z
  last : ∀ y ∈ D, ∀ m < k, ForksAt m x y → m < z

/-- The direction written at bit `k` of a walk, among the devices whose first `k` bits are those of the candidate `c`: some
device has it, and it differs from the preferred one only if all have it (R86, R187). -/
structure Written (D : List RomId) (k : Nat) (c : RomId) (preferred w : Bool) : Prop where
  some_has : ∃ y ∈ D, AgreeBelow k c y ∧ y.getLsbD k = w
  all_have : w ≠ preferred → ∀ y ∈ D, AgreeBelow k c y → y.getLsbD k = w

/-- The first `k` bits of the candidate `c` of a walk that replays `r` up to position `L`, takes 1 there and 0 from then on
(R187), with its `last_zero` `z`. -/
structure WalkInv (D : List RomId) (r : RomId) (L k : Nat) (c : RomId) (z : Nat) : Prop where
  live : ∃ y ∈ D, AgreeBelow k c y
  kept : ∀ m < 64, k ≤ m → c.getLsbD m = r.getLsbD m
  replay : AgreeBelow (min k (L - 1)) c r
  turn : 1 ≤ L → L ≤ k → c.getLsbD (L - 1) = true
  least : ∀ y ∈ D, ∀ m < k, ForksAt m y c → m < L
  lastFork : LastFork D k c z

/-- The preferred direction of bit `k` (R187). -/
def preferredBit (L k : Nat) (c : RomId) : Bool := if k + 1 < L then c.getLsbD k else decide (k + 1 = L)

/-- The next candidate: bit `k` written, the others as they were (R191). -/
structure BitWritten (k : Nat) (c : RomId) (w : Bool) (c' : RomId) : Prop where
  bit : c'.getLsbD k = w
  others : ∀ m < 64, m ≠ k → c'.getLsbD m = c.getLsbD m

section
variable {D : List RomId} {r c c' : RomId} {L k z : Nat} {w : Bool}

theorem BitWritten.agree (h : BitWritten k c w c') (hk : k ≤ 64) : AgreeBelow k c' c :=
  fun m hm => h.others m (by omega) (by omega)

/-- Before the walk nothing is replayed, and every device takes part. -/
theorem walkInv_zero (hD : D ≠ []) : WalkInv D r L 0 r 0 := by
  obtain ⟨y, hy⟩ := List.exists_mem_of_ne_nil D hD
  have hnone {P : Nat → Prop} (m : Nat) (hm : m < 0) : P m := absurd hm (Nat.not_lt_zero m)
  exact ⟨⟨y, hy, nofun⟩, fun _ _ _ => rfl, fun _ _ => rfl, fun h1 h0 => by omega, fun _ _ => hnone, le_rfl, nofun,
    fun _ _ => hnone⟩

/-- The walk replays `r` and turns at position `L`, as preferred (R187): a device that forked from `r` there takes part. -/
theorem WalkInv.follows (h : WalkInv D r L k c z) (hL : Turn D r L) (hkL : k < L)
    (hk : k < 64) (hw : Written D k c (preferredBit L k c) w) : w = if k + 1 < L then r.getLsbD k else true := by
  obtain ⟨y, hy, hagree, _, hy1⟩ := hL (by omega)
  have hcy : AgreeBelow k c y := (h.replay.mono (by omega)).trans (hagree.mono (by omega))
  have hpref : preferredBit L k c = y.getLsbD k := by
    unfold preferredBit
    by_cases hlt : k + 1 < L
    · rw [if_pos hlt, h.kept k hk le_rfl, hagree k (by omega)]
    · have hkL' : k + 1 = L := by omega
      have hy1' : y.getLsbD k = true := by simpa [← hkL'] using hy1
      simp [hkL', hy1']
  have hwy : w = y.getLsbD k := by
    by_contra hne
    exact hne (hw.all_have (hpref ▸ hne) y hy hcy).symm
  rw [hwy]
  split
  · exact (hagree k (by omega)).symm
  · rwa [show k = L - 1 by omega]

/-- Past its turn the walk prefers 0: it takes 1 only where no device has 0 (R187). -/
theorem Written.of_past_turn (hw : Written D k c (preferredBit L k c) true) (hkL : L ≤ k) {y : RomId} (hy : y ∈ D)
    (hcy : AgreeBelow k c y) : y.getLsbD k = true := by
  have hpref : preferredBit L k c = false := by
    rw [preferredBit, if_neg (by omega), decide_eq_false (by omega)]
  exact hw.all_have (by simp [hpref]) y hy hcy

/-- `last_zero` after bit `k` (R190): this position, if 0 was written and some device has 1, else as before. -/
def LastZeroAfter (D : List RomId) (k : Nat) (c : RomId) (w : Bool) (z z' : Nat) : Prop :=
  z' = k + 1 ∧ w = false ∧ (∃ y ∈ D, AgreeBelow k c y ∧ y.getLsbD k = true) ∨
  z' = z ∧ (w = false → ∀ y ∈ D, AgreeBelow k c y → y.getLsbD k = false)

theorem LastFork.step {z' : Nat} (h : LastFork D k c z) (hk : k ≤ 64) (hc : BitWritten k c w c')
    (hz : LastZeroAfter D k c w z z') : LastFork D (k + 1) c' z' := by
  have hcc := hc.agree hk
  rcases hz with ⟨rfl, rfl, y, hy, hcy, hy1⟩ | ⟨rfl, hno⟩
  · exact ⟨le_rfl, fun _ => ⟨y, hy, hcc.trans hcy, hc.bit, hy1⟩, fun _ _ m hm _ => hm⟩
  · refine ⟨h.le.trans (Nat.le_succ k), fun h1 => ?_, fun y hy m hm hfork => ?_⟩
    · obtain ⟨y, hy, hfork⟩ := h.fork h1
      have hle := h.le
      exact ⟨y, hy, hfork.congr_left hcc (by omega)⟩
    · rcases Nat.lt_succ_iff_lt_or_eq.1 hm with hlt | rfl
      · exact h.last y hy m hlt (hfork.congr_left hcc.symm hlt)
      · obtain ⟨hagree, h0, h1⟩ := hfork
        have hy0 := hno (hc.bit.symm.trans h0) y hy (hcc.symm.trans hagree)
        simp [hy0] at h1

/-- One position of the walk. -/
theorem WalkInv.step {z' : Nat} (h : WalkInv D r L k c z) (hL : Turn D r L) (hk : k < 64)
    (hw : Written D k c (preferredBit L k c) w) (hc : BitWritten k c w c') (hz : LastZeroAfter D k c w z z') :
    WalkInv D r L (k + 1) c' z' := by
  have hcc := hc.agree hk.le
  refine ⟨?live, fun m hm hkm => ?kept, fun m hm => ?replay, fun h1 hle => ?turn, fun y hy m hm hfork => ?least,
    h.lastFork.step hk.le hc hz⟩
  case live =>
    obtain ⟨y, hy, hcy, hyw⟩ := hw.some_has
    exact ⟨y, hy, agreeBelow_succ_iff.2 ⟨hcc.trans hcy, hc.bit.trans hyw.symm⟩⟩
  case kept => exact (hc.others m hm (by omega)).trans (h.kept m hm (by omega))
  case replay =>
    by_cases hmk : m < k
    · exact (hcc m hmk).trans (h.replay m (by omega))
    · obtain rfl : m = k := by omega
      have hfollows := h.follows hL (by omega) hk hw
      rw [hc.bit, hfollows, if_pos (by omega)]
  case turn =>
    by_cases hLk : L ≤ k
    · exact (hcc (L - 1) (by omega)).trans (h.turn h1 hLk)
    · obtain rfl : L = k + 1 := by omega
      have hfollows := h.follows hL (Nat.lt_succ_self k) hk hw
      rw [Nat.add_sub_cancel, hc.bit, hfollows, if_neg (lt_irrefl _)]
  case least =>
    rcases Nat.lt_succ_iff_lt_or_eq.1 hm with hlt | rfl
    · exact h.least y hy m hlt (hfork.congr_right hcc hlt)
    · obtain ⟨hagree, h0, h1⟩ := hfork
      obtain rfl : w = true := hc.bit.symm.trans h1
      by_contra hLm
      have hy1 := hw.of_past_turn (Nat.not_lt.1 hLm) hy (hcc.symm.trans hagree.symm)
      simp [hy1] at h0

end

/-! ### The identifier found -/

section
variable {D : List RomId} {r c : RomId} {L z : Nat}

theorem WalkInv.mem (h : WalkInv D r L 64 c z) : c ∈ D := by
  obtain ⟨y, hy, hagree⟩ := h.live
  exact eq_of_agreeBelow hagree ▸ hy

/-- A walk that prefers 0 everywhere finds the first device (R198). -/
theorem WalkInv.first (h : WalkInv D r 0 64 c z) {y : RomId} (hy : y ∈ D) (hne : y ≠ c) : WalkedBefore c y := by
  obtain ⟨m, hm, hyc | hcy⟩ := forksAt_of_ne hne
  · exact absurd (h.least y hy m hm hyc) (Nat.not_lt_zero m)
  · exact ⟨m, hm, hcy⟩

/-- A walk that turns at the last fork of `r` forks from `r` there. -/
theorem WalkInv.forks (h : WalkInv D r L 64 c z) (hr : LastFork D 64 r L) (h1 : 1 ≤ L) : ForksAt (L - 1) r c := by
  obtain ⟨y, _, _, h0, _⟩ := hr.fork h1
  have hle := hr.le
  exact ⟨(h.replay.mono (by omega)).symm, h0, h.turn h1 hle⟩

/-- A walk that turns at the last fork of `r` finds the device after `r` (R198). -/
theorem WalkInv.next (h : WalkInv D r L 64 c z) (hr : LastFork D 64 r L) (h1 : 1 ≤ L) {y : RomId} (hy : y ∈ D)
    (hry : WalkedBefore r y) (hne : y ≠ c) : WalkedBefore c y := by
  obtain ⟨m, hm, hyc | hcy⟩ := forksAt_of_ne hne
  · exfalso
    obtain ⟨j, hj, hfork⟩ := walkedBefore_iff.1 hry
    have hjL := hr.last y hy j hj hfork
    have hmL := h.least y hy m hm hyc
    have hmin : min j m = L - 1 := (hfork.trans hyc).unique (h.forks hr h1)
    obtain rfl : j = m := by omega
    obtain ⟨_, _, hy1⟩ := hfork
    obtain ⟨_, hy0, _⟩ := hyc
    simp [hy1] at hy0
  · exact ⟨m, hm, hcy⟩
end
end Sys2Proof.Machine
end

/-! ## E_IDEAL in a search: the bus reset and the triplet (R84, R86) -/

section
namespace Sys2Proof.Machine
open Relation (ReflTransGen)

/-! ### The bridge at work -/

/-- E_IDEAL itself, with these devices and its bridge idle (R82). -/
structure Ideal.Serves (e : Ideal) (D : List RomId) : Prop where
  plain : e.variant = .plain
  devices : e.devices = D
  idle : busy e.status = false

section
variable {e : Ideal} {D : List RomId} {l : Link}

theorem Ideal.Serves.reads (h : e.Serves D) : e.reads statusPtr = e.status := Ideal.reads_status_plain h.plain

theorem Ideal.Serves.reads_idle (h : e.Serves D) : busy (e.reads statusPtr) = false := h.reads ▸ h.idle

theorem Ideal.Serves.busReset (h : e.Serves D) : e.busReset.Serves D :=
  ⟨h.plain, h.devices, (withPresence_getLsbD _ _ (by decide)).trans h.idle⟩

theorem Ideal.Serves.triplet (h : e.Serves D) (d : Bool) : (e.triplet d).Serves D :=
  ⟨h.plain, h.devices, (withTripletBits_getLsbD_low _ _ _ _ (by decide)).trans h.idle⟩

theorem Link.On.write_busReset (h : l.On e) : (l.write busResetFrame).On e.busReset := by
  obtain ⟨t, p, henv⟩ := h
  refine ⟨t, statusPtr, ?_⟩
  rw [Link.write_env, henv]
  rfl

theorem Link.On.write_search (h : l.On e) (hmode : e.mode = .idle) :
    (l.write (writeByteFrame searchCommand)).On { e with mode := .search, pos := 1 } := by
  obtain ⟨t, p, henv⟩ := h
  refine ⟨t, statusPtr, ?_⟩
  rw [Link.write_env, henv]
  exact congrArg Env.ideal (Ideal.writeByte_search _ hmode)

theorem Link.On.write_triplet (h : l.On e) (d : Bool) : (l.write (tripletFrame (tripletDirByte d))).On (e.triplet d) := by
  obtain ⟨t, p, henv⟩ := h
  refine ⟨t, statusPtr, ?_⟩
  rw [Link.write_env, henv]
  cases d <;> rfl

/-- With a device on the bus, `reset()` succeeds (R84, R140). -/
theorem reset_returns_true (hon : l.On e) (he : e.Serves D) (hD : D ≠ []) :
    ∃ l', Returns resetPoint (.brIssue, l) true l' ∧ l'.On e.busReset := by
  have hreads := he.busReset.reads
  have hppd : ppd e.busReset.status = true := by
    rw [Ideal.busReset, ppd_withPresence, he.devices]
    simpa using hD
  obtain ⟨l₁, hpresence, hon₁, _⟩ :=
    poll_returns_ok (c := .presence) (T := Config.tReset) hon.write_busReset (hreads ▸ hppd)
  obtain ⟨l₂, hbusy, hon₂, _⟩ :=
    poll_returns_ok (c := .notBusy) (T := Config.tBusy) hon₁ (by simp [Cond.holds, he.busReset.reads_idle])
  have hissue : Moves resetPoint (.brIssue, l) (.brPpd .pT0, l.write busResetFrame) := rfl
  have hpresence' : ReflTransGen (Moves resetPoint) (.brPpd .pT0, l.write busResetFrame) (.brBusy .pT0, l₁) :=
    hpresence.within (fun _ _ => rfl) rfl
  have hbusy' : ReflTransGen (Moves resetPoint) (.brBusy .pT0, l₁) (.brTrue, l₂) := hbusy.within (fun _ _ => rfl) rfl
  exact ⟨l₂, ⟨_, .head hissue (hpresence'.trans hbusy'), rfl⟩, hon₂⟩

/-- What a triplet among some active devices does: at a discrepancy the preferred direction is written, elsewhere the bit
all of them have (R86). -/
theorem triplet_cases (hplain : e.variant = .plain) (hactive : e.active ≠ []) (d : Bool) :
    (sbr (e.triplet d).status = false ∧ tsb (e.triplet d).status = false ∧ dir (e.triplet d).status = d ∧
      (∃ y ∈ e.active, y.getLsbD (e.pos - 1) = false) ∧ ∃ y ∈ e.active, y.getLsbD (e.pos - 1) = true) ∨
    (sbr (e.triplet d).status = dir (e.triplet d).status ∧ tsb (e.triplet d).status = !dir (e.triplet d).status ∧
      ∀ y ∈ e.active, y.getLsbD (e.pos - 1) = dir (e.triplet d).status) := by
  obtain ⟨hb, hc, hw, _⟩ := idealTripletTable e d hplain
  obtain ⟨x, hx⟩ := List.exists_mem_of_ne_nil _ hactive
  rcases hsb : sbr (e.triplet d).status <;> rcases htb : tsb (e.triplet d).status <;> simp [hsb, htb] at hb hc hw
  · exact .inl ⟨rfl, rfl, hw, hb, hc⟩
  · exact .inr ⟨hw.symm, by simp [hw], fun y hy => by simp [hw, hc y hy]⟩
  · exact .inr ⟨hw.symm, by simp [hw], fun y hy => by simp [hw, hb y hy]⟩
  · simpa [hc x hx] using hb x hx

end
end Sys2Proof.Machine
end

/-! ## The walk of a search step on E_IDEAL (R187 to R192) -/

section
namespace Sys2Proof.Machine
open Relation (ReflTransGen)

/-! ### Moves of the search step -/

/-- The search step goes from one point to another; what it may send there is a bridge command. -/
def SearchMoves (a b : SearchPt × State) : Prop :=
  Moves searchPoint a b ∧ ∀ f, a.1.issuing a.2.ctl.cmd = some f → Decodes f

/-- The search step, run from this point, returns this result and leaves this state. -/
def SearchReturns (a : SearchPt × State) (r : SearchResult) (t : State) : Prop :=
  ∃ b, ReflTransGen SearchMoves a b ∧ searchPoint b.1 b.2 = (t, .done r)

/-- A run of `reset()` in the search step. -/
theorem search_runs_reset {s : State} {l : Link} {b : Bool} {q : SearchPt} {t : State}
    (h : Returns resetPoint (.brIssue, s.link) b l)
    (hdone : ∀ p x, resetPoint p x = (l, .done b) → searchPoint (.sReset p) (s.withLink x) = (t, .goto q)) :
    ReflTransGen SearchMoves (.sReset .brIssue, s) (q, t) := by
  refine h.lift (R := SearchMoves) (f := fun a => (.sReset a.1, s.withLink a.2)) (fun a b hab => ⟨?_, ?_⟩)
    fun p x hp => ⟨hdone p x hp, ?_⟩
  · have hab : resetPoint a.1 a.2 = (b.2, .goto b.1) := hab
    simp [Moves, searchPoint, hab, State.withLink]
  · exact fun f hf => ResetPt.decodes_of_issuing (p := a.1) hf
  · exact fun f hf => ResetPt.decodes_of_issuing (p := p) hf

/-- A run of `Cmd` in the search step. -/
theorem search_runs_cmd {stay : CmdPt → SearchPt} {ret : Wait → Flow SearchPt SearchResult} {s : State} {l : Link}
    {q : SearchPt} (h : Returns (cmdPoint s.ctl.cmd) (.cPre .pT0, s.link) .ok l) (hcmd : Decodes s.ctl.cmd)
    (hstay : ∀ p t, searchPoint (stay p) t =
      (t.withLink (cmdPoint t.ctl.cmd p t.link).1, (cmdPoint t.ctl.cmd p t.link).2.within stay ret))
    (hissue : ∀ p cmd, (stay p).issuing cmd = p.issuing cmd) (hret : ret .ok = .goto q) :
    ReflTransGen SearchMoves (stay (.cPre .pT0), s) (q, s.withLink l) := by
  have hsend (p : CmdPt) (f : Frame) (hf : (stay p).issuing s.ctl.cmd = some f) : Decodes f :=
    CmdPt.decodes_of_issuing hcmd (hissue p _ ▸ hf)
  refine h.lift (R := SearchMoves) (f := fun a => (stay a.1, s.withLink a.2)) (fun a b hab => ⟨?_, hsend a.1⟩)
    fun p x hp => ⟨?_, hsend p⟩
  · have hab : cmdPoint s.ctl.cmd a.1 a.2 = (b.2, .goto b.1) := hab
    simp [Moves, hstay, hab, State.withLink]
  · simp [Moves, hstay, hp, hret, State.withLink]

/-! ### The points without an event -/

theorem trackZero_walk (s : State) : s.trackZero.walk =
    { s.walk with lastZero := if zeroBranch s.link.snap then s.walk.n else s.walk.lastZero } := by
  unfold State.trackZero
  split <;> rfl

theorem trackZero_rom (s : State) : s.trackZero.search.rom = s.search.rom := by
  unfold State.trackZero
  split
  · dsimp only
    split <;> rfl
  · rfl

theorem trackZero_lastDiscrepancy (s : State) : s.trackZero.search.lastDiscrepancy = s.search.lastDiscrepancy := by
  unfold State.trackZero
  split
  · dsimp only
    split <;> rfl
  · rfl

theorem romToId_eq_zero_of_allZero {x : SearchState} (h : x.allZero = true) : romToId x.rom = 0 := by
  refine BitVec.eq_of_getLsbD_eq fun m hm => ?_
  have hi : m / 8 < 8 := by omega
  have hbyte : x.rom[m / 8] = 0 := by
    have hall := List.all_eq_true.1 h x.rom[m / 8] (Vector.mem_toList_iff.2 (Vector.getElem_mem hi))
    exact beq_iff_eq.1 hall
  rw [← Nat.div_add_mod m 8, romToId_getLsbD x.rom hi (Nat.mod_lt _ (by decide)), hbyte]
  simp

/-! ### The walk -/

/-- The preferred direction of a walk at position `k + 1` (R187). -/
theorem preferred_eq {x : SearchState} {w : Walk} {k : Nat} (hw : w.Coherent) (hn : w.n.toNat = k + 1) :
    preferred x w = preferredBit x.lastDiscrepancy.toNat k (romToId x.rom) := by
  obtain ⟨h1, h64, hidx, hmask⟩ := hw
  have hbit := walkPositionIsIdentifierBit x.rom w.n.toNat h1 h64
  have heq : (w.n == x.lastDiscrepancy) = decide (k + 1 = x.lastDiscrepancy.toNat) := by
    rw [← hn, Bool.eq_iff_iff, beq_iff_eq, decide_eq_true_iff, BitVec.toNat_inj]
  rw [preferred, hidx, hmask, hbit, heq, preferredBit, hn, Nat.add_sub_cancel]
  simp only [BitVec.lt_def, hn]

/-- The store writes bit `k` of the candidate (R191). -/
theorem bitWritten_romStore (r : Rom) {w : Walk} {k : Nat} (hw : w.Coherent) (hn : w.n.toNat = k + 1) (b : Bool) :
    BitWritten k (romToId r) b (romToId (romStore r w.byteIdx.toNat w.mask b)) := by
  obtain ⟨h1, h64, hidx, hmask⟩ := hw
  rw [hidx, hmask]
  refine ⟨?_, fun m hm hmk => ?_⟩
  · rw [romToId_romStore_getLsbD r h1 h64 b (by omega), if_pos (by omega)]
  · rw [romToId_romStore_getLsbD r h1 h64 b hm, if_neg (by omega)]

theorem triplet_noDevice {e : Ideal} (hplain : e.variant = .plain) (hne : e.active ≠ []) (d : Bool) :
    noDevice (e.triplet d).status = false := by
  rw [noDevice]
  rcases triplet_cases hplain hne d with ⟨hb, _⟩ | ⟨hb, hc, _⟩
  · simp [hb]
  · simp [hb, hc]

section
variable {e : Ideal} {D : List RomId} {c : RomId} {k : Nat} (hplain : e.variant = .plain) (hpos : e.pos = k + 1)
  (hactive : ∀ y, y ∈ e.active ↔ y ∈ D ∧ AgreeBelow k c y)
include hplain hpos hactive

/-- The devices whose bit was written stay active (R86). -/
theorem triplet_active {c' : RomId} {d : Bool} (hk : k < 64) (hbit : BitWritten k c (dir (e.triplet d).status) c')
    (y : RomId) : y ∈ (e.triplet d).active ↔ y ∈ D ∧ AgreeBelow (k + 1) c' y := by
  obtain ⟨_, _, _, _, hkept, _, _⟩ := idealTripletTable e d hplain
  have hcc := hbit.agree hk.le
  rw [hkept y, hactive y, hpos, Nat.add_sub_cancel, agreeBelow_succ_iff, hbit.bit, and_assoc]
  constructor
  · rintro ⟨hy, hagree, hw⟩
    exact ⟨hy, hcc.trans hagree, hw.symm⟩
  · rintro ⟨hy, hagree, hw⟩
    exact ⟨hy, hcc.symm.trans hagree, hw.symm⟩

theorem triplet_written (hne : e.active ≠ []) (d : Bool) : Written D k c d (dir (e.triplet d).status) := by
  rcases triplet_cases hplain hne d with ⟨_, _, hw, ⟨x, hx, hx0⟩, y, hy, hy1⟩ | ⟨_, _, hall⟩
  · rw [hpos, Nat.add_sub_cancel] at hx0 hy1
    rw [hactive] at hx hy
    refine ⟨?_, fun hd => absurd hw hd⟩
    rw [hw]
    cases d
    · exact ⟨x, hx.1, hx.2, hx0⟩
    · exact ⟨y, hy.1, hy.2, hy1⟩
  · rw [hpos, Nat.add_sub_cancel] at hall
    obtain ⟨x, hx⟩ := List.exists_mem_of_ne_nil _ hne
    have hxD := (hactive x).1 hx
    exact ⟨⟨x, hxD.1, hxD.2, hall x hx⟩, fun _ y hy hcy => hall y ((hactive y).2 ⟨hy, hcy⟩)⟩

theorem triplet_lastZero (hne : e.active ≠ []) (d : Bool) (z : Nat) :
    LastZeroAfter D k c (dir (e.triplet d).status) z (if zeroBranch (e.triplet d).status then k + 1 else z) := by
  rw [zeroBranch]
  rcases triplet_cases hplain hne d with ⟨hb, hc, hw, _, y, hy, hy1⟩ | ⟨hb, hc, hall⟩
  · rw [hb, hc, hw]
    rw [hpos, Nat.add_sub_cancel] at hy1
    have hyD := (hactive y).1 hy
    cases d
    · exact .inl ⟨rfl, rfl, y, hyD.1, hyD.2, hy1⟩
    · exact .inr ⟨rfl, nofun⟩
  · rw [hpos, Nat.add_sub_cancel] at hall
    refine .inr ⟨by simp [hb, hc], fun hw y hy hcy => ?_⟩
    exact (hall y ((hactive y).2 ⟨hy, hcy⟩)).trans hw

end

/-- A walk on E_IDEAL has done its first `k` positions: the identifier and `last_zero` are those of the walk, and the
devices still active are those that agree with the identifier so far. -/
structure Walking (D : List RomId) (r : RomId) (L k : Nat) (reg : Registry) (s : State) : Prop where
  inv : WalkInv D r L k (romToId s.search.rom) s.walk.lastZero.toNat
  lastDiscrepancy : s.search.lastDiscrepancy.toNat = L
  flag : s.search.lastDeviceFlag = false
  registry : s.registry = reg
  bus : ∃ e, s.link.On e ∧ e.Serves D ∧ e.pos = k + 1 ∧
    ∀ y, y ∈ e.active ↔ y ∈ D ∧ AgreeBelow k (romToId s.search.rom) y

/-- The walk temporaries are at position `k + 1` (R26). -/
def Walk.At (w : Walk) (k : Nat) : Prop := w.Coherent ∧ w.n.toNat = k + 1

/-- After the triplet of the walk's position, which left the link side `l`. -/
def State.afterTriplet (s : State) (l : Link) : State :=
  (s.chooseDirection.loadCmd (tripletFrame (tripletDirByte (preferred s.search s.walk)))).withLink l

/-- After the snapshot of a triplet has been decoded and the walk has advanced. -/
def State.decoded (s : State) : State := { s.trackZero.storeBit with walk := s.trackZero.walk.advance }

section
variable {D : List RomId} {r : RomId} {L k : Nat} {reg : Registry} {s : State}

/-- The triplet of a position, on E_IDEAL (R187, R188). -/
theorem search_runs_triplet {e : Ideal} (hon : s.link.On e) (he : e.Serves D) :
    ∃ l, ReflTransGen SearchMoves (.sDir, s) (.sDecode, s.afterTriplet l) ∧
      l.On (e.triplet (preferred s.search s.walk)) ∧ l.snap = (e.triplet (preferred s.search s.walk)).status := by
  have hsend : Decodes (tripletFrame (tripletDirByte (preferred s.search s.walk))) := ⟨.brTriplet _, rfl⟩
  have he' := he.triplet (preferred s.search s.walk)
  obtain ⟨l, hcmd, hon', hsnap⟩ := cmd_returns_ok hon he.reads_idle (fun _ h => h.write_triplet _) he'.reads_idle
  have hdir : SearchMoves (.sDir, s) (.sTrip (.cPre .pT0), s.afterTriplet s.link) := ⟨rfl, nofun⟩
  have htrip : ReflTransGen SearchMoves (.sTrip (.cPre .pT0), s.afterTriplet s.link) (.sDecode, s.afterTriplet l) :=
    search_runs_cmd hcmd hsend (fun _ _ => rfl) (fun _ _ => rfl) rfl
  exact ⟨l, .head hdir htrip, hon', hsnap.trans he'.reads⟩

theorem trackZero_walkAt (hat : s.walk.At k) : s.trackZero.walk.At k := by
  rw [trackZero_walk]
  exact hat

/-- The points that decode a snapshot with a device in it, to the next position or the end of the walk (R189 to R192). -/
theorem search_runs_decode (hat : s.walk.At k) (hno : noDevice s.link.snap = false) :
    ReflTransGen SearchMoves (.sDecode, s) (if k + 1 < 64 then .sDir else .sFin, s.decoded) := by
  have hdecode : SearchMoves (.sDecode, s) (.sAbsent, s) := ⟨rfl, nofun⟩
  have habsent : SearchMoves (.sAbsent, s) (.sZero, s) := ⟨by simp [Moves, searchPoint, hno], nofun⟩
  have hzero : SearchMoves (.sZero, s) (.sStore, s.trackZero) := ⟨rfl, nofun⟩
  have hstore : SearchMoves (.sStore, s.trackZero) (.sAdv, s.trackZero.storeBit) := ⟨rfl, nofun⟩
  have hadv : SearchMoves (.sAdv, s.trackZero.storeBit) (if k + 1 < 64 then .sDir else .sFin, s.decoded) := by
    refine ⟨?_, nofun⟩
    obtain ⟨hw, hn⟩ := trackZero_walkAt hat
    have hmore : s.trackZero.walk.advance.more = decide (k + 1 < 64) := by
      rw [Bool.eq_iff_iff, Walk.more_advance_iff hw, hn, decide_eq_true_iff]
    simp [Moves, searchPoint, hmore, State.decoded]
  exact .head hdecode (.head habsent (.head hzero (.head hstore (.single hadv))))

theorem decoded_walkAt (hat : s.walk.At k) (hk : k + 1 < 64) : s.decoded.walk.At (k + 1) := by
  obtain ⟨hw, hn⟩ := trackZero_walkAt hat
  exact ⟨Walk.advance_coherent hw (hn.trans_lt hk), (Walk.advance_of_coherent hw).1.trans (congrArg (· + 1) hn)⟩

theorem decoded_lastZero (hat : s.walk.At k) :
    s.decoded.walk.lastZero.toNat = if zeroBranch s.link.snap then k + 1 else s.walk.lastZero.toNat := by
  obtain ⟨hw, _⟩ := trackZero_walkAt hat
  obtain ⟨_, hlastZero, _, _⟩ := Walk.advance_of_coherent hw
  have hadv : s.decoded.walk.lastZero = s.trackZero.walk.lastZero := hlastZero
  rw [hadv, trackZero_walk]
  dsimp only
  split
  · exact hat.2
  · rfl

theorem decoded_bitWritten (hat : s.walk.At k) :
    BitWritten k (romToId s.search.rom) (dir s.link.snap) (romToId s.decoded.search.rom) := by
  have hrom : s.decoded.search.rom =
      romStore s.search.rom s.walk.byteIdx.toNat s.walk.mask (dir s.link.snap) := by
    show romStore s.trackZero.search.rom _ _ (dir s.trackZero.link.snap) = _
    rw [trackZero_rom, trackZero_walk, trackZero_link]
  rw [hrom]
  exact bitWritten_romStore _ hat.1 hat.2 _

/-- One position of a walk on E_IDEAL. -/
theorem Walking.step (h : Walking D r L k reg s) (hL : Turn D r L) (hat : s.walk.At k)
    (hk : k < 64) :
    ∃ t, ReflTransGen SearchMoves (.sDir, s) (if k + 1 < 64 then .sDir else .sFin, t) ∧ Walking D r L (k + 1) reg t ∧
      (k + 1 < 64 → t.walk.At (k + 1)) := by
  obtain ⟨e, hon, he, hpos, hactive⟩ := h.bus
  obtain ⟨l, htrip, hon', hsnap⟩ := search_runs_triplet hon he
  have hat' : (s.afterTriplet l).walk.At k := hat
  have hne : e.active ≠ [] := by
    obtain ⟨y, hy, hagree⟩ := h.inv.live
    exact List.ne_nil_of_mem ((hactive y).2 ⟨hy, hagree⟩)
  have hpref : preferred s.search s.walk = preferredBit L k (romToId s.search.rom) :=
    h.lastDiscrepancy ▸ preferred_eq hat.1 hat.2
  have hwritten := triplet_written he.plain hpos hactive hne (preferred s.search s.walk)
  have hbit : BitWritten k _ (dir (e.triplet (preferred s.search s.walk)).status) _ := hsnap ▸ decoded_bitWritten hat'
  have hzero : (s.afterTriplet l).decoded.walk.lastZero.toNat = _ := decoded_lastZero hat'
  rw [show (s.afterTriplet l).link.snap = _ from hsnap] at hzero
  have hdecode := search_runs_decode hat' (hsnap ▸ triplet_noDevice he.plain hne _)
  refine ⟨_, htrip.trans hdecode, ⟨?inv, ?ld, ?flag, ?reg, ?bus⟩, decoded_walkAt hat'⟩
  case inv =>
    refine h.inv.step hL hk (hpref ▸ hwritten) hbit ?_
    rw [hzero]
    exact triplet_lastZero he.plain hpos hactive hne _ _
  case ld => exact (congrArg BitVec.toNat (trackZero_lastDiscrepancy _)).trans h.lastDiscrepancy
  case flag => exact (trackZero_lastDeviceFlag _).trans h.flag
  case reg => exact (trackZero_registry _).trans h.registry
  case bus =>
    refine ⟨_, ?_, he.triplet _, congrArg (· + 1) hpos, triplet_active he.plain hpos hactive hk hbit⟩
    show (s.afterTriplet l).trackZero.link.On _
    rw [trackZero_link]
    exact hon'

/-- A walk on E_IDEAL, through all 64 positions. -/
theorem Walking.all (h : Walking D r L k reg s) (hL : Turn D r L) (hat : s.walk.At k)
    (hk : k < 64) : ∃ t, ReflTransGen SearchMoves (.sDir, s) (.sFin, t) ∧ Walking D r L 64 reg t := by
  obtain ⟨j, hj⟩ : ∃ j, k + 1 + j = 64 := ⟨63 - k, by omega⟩
  induction j generalizing k s with
  | zero =>
    obtain ⟨t, hrun, ht, _⟩ := h.step hL hat hk
    rw [if_neg (by omega)] at hrun
    exact ⟨t, hrun, by rwa [show k + 1 = 64 by omega] at ht⟩
  | succ j ih =>
    obtain ⟨t, hrun, ht, hat'⟩ := h.step hL hat hk
    rw [if_pos (by omega)] at hrun
    obtain ⟨u, hrun', hu⟩ := ih ht (hat' (by omega)) (by omega) (by omega)
    exact ⟨u, hrun.trans hrun', hu⟩

end

end Sys2Proof.Machine
end

/-! ## A search step on E_IDEAL, and the operations that make one (R180 to R195) -/

section
namespace Sys2Proof.Machine
open Relation (ReflTransGen)

/-! ### A whole search step -/

section
variable {D : List RomId} {s : State}

/-- The environment is E_IDEAL itself, with these devices and its bridge idle. -/
def Link.Serves (l : Link) (D : List RomId) : Prop := ∃ e, l.On e ∧ e.Serves D

/-- Up to the walk: the bus reset and the search command (R185, R186). -/
theorem search_runs_to_walk {e : Ideal} (hon : s.link.On e) (he : e.Serves D) (hD : D ≠ []) :
    ∃ t, ReflTransGen SearchMoves (.sReset .brIssue, s) (.sDir, t) ∧ t.search = s.search ∧ t.registry = s.registry ∧
      t.walk = s.walk.init ∧ ∃ e', t.link.On e' ∧ e'.Serves D ∧ e'.pos = 1 ∧ e'.active = D := by
  obtain ⟨l₁, hreset, hon₁⟩ := reset_returns_true hon he hD
  have he₂ : ({ e.busReset with mode := .search, pos := 1 } : Ideal).Serves D :=
    ⟨he.busReset.plain, he.busReset.devices, he.busReset.idle⟩
  obtain ⟨l₂, hcmd, hon₂, _⟩ :=
    cmd_returns_ok hon₁ he.busReset.reads_idle (fun _ h => h.write_search rfl) he₂.reads_idle
  let s₁ := (s.withLink l₁).loadCmd (writeByteFrame searchCommand)
  have hsend : Decodes s₁.ctl.cmd := ⟨.brWriteByte _, rfl⟩
  have hrun₁ : ReflTransGen SearchMoves (.sReset .brIssue, s) (.sCmd (.cPre .pT0), s₁) :=
    search_runs_reset hreset fun p x hp => by simp [searchPoint, hp, State.withLink, s₁]
  have hrun₂ : ReflTransGen SearchMoves (.sCmd (.cPre .pT0), s₁) (.sInit, s₁.withLink l₂) :=
    search_runs_cmd hcmd hsend (fun _ _ => rfl) (fun _ _ => rfl) rfl
  let t := { s₁.withLink l₂ with walk := s.walk.init }
  have hinit : SearchMoves (.sInit, s₁.withLink l₂) (.sDir, t) := ⟨rfl, nofun⟩
  exact ⟨t, (hrun₁.trans hrun₂).tail hinit, rfl, rfl, rfl, _, hon₂, he₂, rfl, he.devices⟩

/-- What a search step that found `id` among the devices `D` leaves in the Search State (R193). -/
structure SearchState.Found (x : SearchState) (D : List RomId) (id : RomId) : Prop where
  rom : romToId x.rom = id
  lastFork : LastFork D 64 id x.lastDiscrepancy.toNat
  flag : x.lastDeviceFlag = (x.lastDiscrepancy == 0)

/-- The end of a walk: the identifier is registered and returned (R193 to R195). -/
theorem search_runs_end {r : RomId} {L : Nat} {reg : Registry} (h : Walking D r L 64 reg s) (h0 : (0 : RomId) ∉ D) :
    SearchReturns (.sFin, s) (.found (romToId s.search.rom)) s.endWalk.register ∧
      s.endWalk.register.search.Found D (romToId s.search.rom) := by
  have hid : romToId s.search.rom ≠ 0 := fun hz => h0 (hz ▸ h.inv.mem)
  have hall : s.endWalk.search.allZero = false := by
    rw [← Bool.not_eq_true]
    exact fun hz => hid (romToId_eq_zero_of_allZero hz)
  have hfin : SearchMoves (.sFin, s) (.sAllzero, s.endWalk) := ⟨rfl, nofun⟩
  have hallzero : SearchMoves (.sAllzero, s.endWalk) (.sReg, s.endWalk) := by
    refine ⟨?_, nofun⟩
    simp only [Moves, searchPoint, hall]
    rfl
  have hreg : SearchMoves (.sReg, s.endWalk) (.sFound, s.endWalk.register) := ⟨rfl, nofun⟩
  exact ⟨⟨_, .head hfin (.head hallzero (.single hreg)), rfl⟩, rfl, h.inv.lastFork, by simp [h.flag]⟩

/-- A search step on E_IDEAL with a device on the bus: it finds the device its walk leads to, registers it, and leaves
what the next step needs (R182 to R195). -/
theorem search_finds (hl : s.link.Serves D) (hD : D ≠ []) (h0 : (0 : RomId) ∉ D) (hflag : s.search.lastDeviceFlag = false)
    (hL : Turn D (romToId s.search.rom) s.search.lastDiscrepancy.toNat) :
    ∃ t id, SearchReturns (.sFresh, s) (.found id) t ∧ t.link.Serves D ∧ t.search.Found D id ∧
      WalkInv D (romToId s.search.rom) s.search.lastDiscrepancy.toNat 64 id t.search.lastDiscrepancy.toNat ∧
      t.registry = s.beginStep.registry.append id := by
  obtain ⟨e, hon, he⟩ := hl
  have hfresh : SearchMoves (.sFresh, s) (.sLdf, s.beginStep) := ⟨rfl, nofun⟩
  have hldf : SearchMoves (.sLdf, s.beginStep) (.sReset .brIssue, s.beginStep) :=
    ⟨by simp [Moves, searchPoint, beginStep_search, hflag], nofun⟩
  obtain ⟨u, hrun, hsearch, hreg, hwalk, e', hon', he', hpos, hactive⟩ :=
    search_runs_to_walk ((beginStep_link s).symm ▸ hon) he hD
  rw [beginStep_search] at hsearch
  have hwalking : Walking D (romToId s.search.rom) s.search.lastDiscrepancy.toNat 0 s.beginStep.registry u := by
    refine ⟨?_, congrArg (·.lastDiscrepancy.toNat) hsearch, hsearch ▸ hflag, hreg, e', hon', he', hpos, fun y => ?_⟩
    · rw [hsearch, hwalk]
      exact walkInv_zero hD
    · rw [hactive]
      exact ⟨fun hy => ⟨hy, nofun⟩, fun hy => hy.1⟩
  have hat : u.walk.At 0 := hwalk ▸ ⟨Walk.init_coherent _, rfl⟩
  obtain ⟨v, hrun', hv⟩ := hwalking.all hL hat (by decide)
  obtain ⟨⟨b, hend, hdone⟩, hfound⟩ := search_runs_end hv h0
  obtain ⟨e'', hon'', he'', _⟩ := hv.bus
  have hrunAll := ((ReflTransGen.head hfresh (.head hldf hrun)).trans hrun').trans hend
  refine ⟨_, _, ⟨b, hrunAll, hdone⟩, ⟨e'', hon'', he''⟩, hfound, hv.inv, ?_⟩
  rw [← hv.registry]
  rfl

/-- After the last device a search step ends without an event (R184). -/
theorem search_exhausts (hflag : s.search.lastDeviceFlag = true) : SearchReturns (.sFresh, s) .exhausted s.searchFail := by
  have hbegin : s.beginStep = s := if_neg (by simp [SearchState.fresh, hflag])
  have hfresh : SearchMoves (.sFresh, s) (.sLdf, s) := ⟨by simp [Moves, searchPoint, hbegin], nofun⟩
  have hldf : SearchMoves (.sLdf, s) (.sFail, s) := ⟨by simp [Moves, searchPoint, hflag], nofun⟩
  exact ⟨_, .head hfresh (.single hldf), rfl⟩

end

/-! ### The operations that search -/

theorem SearchPt.issuing_of_done {p : SearchPt} {s t : State} {r : SearchResult} (h : searchPoint p s = (t, .done r)) :
    p.issuing s.ctl.cmd = none := by
  rcases hf : p.issuing s.ctl.cmd with _ | f
  · rfl
  · simp [searchPoint_of_issuing hf] at h

theorem beginStep_goto (s : State) (f : Fsm) : (s.goto f).beginStep = s.beginStep.goto f := by
  unfold State.beginStep
  by_cases h : s.search.fresh = true <;> simp [h, State.goto]

theorem trackZero_goto (s : State) (f : Fsm) : (s.goto f).trackZero = s.trackZero.goto f := by
  unfold State.trackZero
  by_cases h : zeroBranch s.link.snap = true <;> simp [h, State.goto]
  rfl

/-- No point of the search step reads the control state. -/
theorem searchPoint_goto (p : SearchPt) (s : State) (f : Fsm) :
    searchPoint p (s.goto f) = ((searchPoint p s).1.goto f, (searchPoint p s).2) := by
  cases p with
  | sReset q => rcases hq : resetPoint q s.link with ⟨l, q' | _ | _⟩ <;> simp [searchPoint, hq] <;> rfl
  | sFresh => exact congrArg (·, _) (beginStep_goto s f)
  | sZero => exact congrArg (·, _) (trackZero_goto s f)
  | sLdf | sCmd _ | sInit | sDir | sTrip _ | sDecode | sAbsent | sStore | sAdv | sFin | sAllzero | sReg | sFound
    | sFail => rfl

/-- An operation whose points `stay` are a search step's, and which goes on as `ret` says when the step returns. -/
structure SearchCaller (stay : SearchPt → Fsm) (ret : State → SearchResult → State) : Prop where
  moves : ∀ {a b}, SearchMoves a b → Next (a.2.goto (stay a.1)) (b.2.goto (stay b.1))
  returns : ∀ {p s t r}, searchPoint p s = (t, .done r) → Next (s.goto (stay p)) (ret t r)

theorem SearchCaller.runs {stay : SearchPt → Fsm} {ret : State → SearchResult → State} (h : SearchCaller stay ret)
    {p : SearchPt} {s t : State} {r : SearchResult} (hrun : SearchReturns (p, s) r t) :
    ReflTransGen Next (s.goto (stay p)) (ret t r) := by
  obtain ⟨b, hmoves, hdone⟩ := hrun
  exact (hmoves.lift (fun a => a.2.goto (stay a.1)) fun _ _ => h.moves).tail (h.returns hdone)

/-- Where control goes after a point of the search step: to another point of it, or on as `ret` says. -/
def resume (stay : SearchPt → Fsm) (ret : State → SearchResult → State) : State × Flow SearchPt SearchResult → State
  | (t, .goto q) => t.goto (stay q)
  | (t, .done r) => ret t r

/-- An operation that does at its points what the search step does. -/
theorem SearchCaller.of_exec {stay : SearchPt → Fsm} {ret : State → SearchResult → State} {op : Byte → Instr}
    (hrunning : ∀ (s : State) p, (s.goto (stay p)).ctl.running = some (op s.ctl.arg))
    (hissuing : ∀ (s : State) p, (s.goto (stay p)).ctl.issuing = p.issuing s.ctl.cmd)
    (hexec : ∀ (a : Byte) (s : State) p, exec (op a) (s.goto (stay p)) = .next (resume stay ret (searchPoint p s))) :
    SearchCaller stay ret where
  moves {a b} h := by
    have hpoint : searchPoint a.1 a.2 = (b.2, .goto b.1) := h.1
    rw [Next, step_running (hrunning a.2 a.1) (hissuing a.2 a.1 ▸ h.2), hexec, hpoint, resume]
  returns {p s t r} h := by
    have hnone : (s.goto (stay p)).ctl.issuing = none := (hissuing s p).trans (SearchPt.issuing_of_done h)
    rw [Next, step_running (hrunning s p) (hnone ▸ nofun), hexec, h, resume]

theorem searchCaller_first : SearchCaller .searchFirst State.reportSearch := by
  refine .of_exec (op := .searchFirst) (fun _ _ => rfl) (fun _ _ => rfl) fun a s p => ?_
  have hp : searchPoint p (s.goto (.searchFirst p)) = _ := searchPoint_goto p s _
  simp only [exec, execSearchFirst, State.goto_ctl, State.callSearch, hp]
  rcases searchPoint p s with ⟨t, q | id | _⟩ <;> rfl

theorem searchCaller_enumerate {stay : SearchPt → EnumPt} (hstay : stay = .eFirst ∨ stay = .eNext) :
    SearchCaller (fun p => .enumerate (stay p)) (fun t r => t.goto (.enumerate (enumAfter r))) := by
  obtain rfl | rfl := hstay
  all_goals
    refine .of_exec (op := .enumerate) (fun _ _ => rfl) (fun _ _ => rfl) fun a s p => ?_
    have hp := searchPoint_goto p s
    simp only [exec, execEnumerate, State.goto_ctl, hp]
    rcases searchPoint p s with ⟨t, q | r⟩ <;> rfl

end Sys2Proof.Machine
end

/-! ## SEARCH_FIRST and ENUMERATE on E_IDEAL (R180, R197, R198) -/

section
namespace Sys2Proof.Machine
open Relation (ReflTransGen)

/-! ### The host interface registers -/

/-- The search step leaves the host interface registers alone (R34). -/
theorem searchMoves_port {a b : SearchPt × State} (h : ReflTransGen SearchMoves a b) : b.2.port = a.2.port := by
  induction h with
  | refl => rfl
  | tail _ hmove ih => exact (searchPoint_port hmove.1).trans ih

theorem SearchReturns.port {a : SearchPt × State} {r : SearchResult} {t : State} (h : SearchReturns a r t) :
    t.port = a.2.port := by
  obtain ⟨b, hmoves, hdone⟩ := h
  exact (searchPoint_port hdone).trans (searchMoves_port hmoves)

/-! ### What the registry holds -/

/-- The registry holds these identifiers, in this order from slot 0 (R28, R29). -/
def Registry.Holds (r : Registry) (ids : List RomId) : Prop :=
  r.count.toNat = ids.length ∧ ∀ i, r.slot i = ids[i]?.getD 0

theorem Registry.clear_holds (r : Registry) : r.clear.Holds [] := ⟨rfl, r.clear_slot⟩

theorem Registry.Holds.append {r : Registry} {ids : List RomId} (h : r.Holds ids) (hlt : ids.length < 16) (id : RomId) :
    (r.append id).Holds (ids ++ [id]) := by
  obtain ⟨hcount, hslot⟩ := h
  have hroom : r.count.toNat < Config.regN := hcount.trans_lt hlt
  refine ⟨by simp [Registry.append_count hroom, hcount], fun i => ?_⟩
  rw [Registry.append_slot hroom, hcount, hslot]
  rcases lt_trichotomy i ids.length with hi | rfl | hi
  · rw [if_neg hi.ne, List.getElem?_append_left hi]
  · simp
  · rw [if_neg hi.ne', List.getElem?_eq_none hi.le, List.getElem?_eq_none (by simpa using hi)]

/-- One identifier in slot 0, and the other slots empty. -/
theorem Registry.Holds.singleton {r : Registry} {id : RomId} (h : r.Holds [id]) :
    r.count = 1 ∧ r.slot 0 = id ∧ ∀ i, 1 ≤ i → r.slot i = 0 := by
  obtain ⟨hcount, hslot⟩ := h
  refine ⟨BitVec.eq_of_toNat_eq hcount, hslot 0, fun i hi => ?_⟩
  have hnone : [id][i]? = none := List.getElem?_eq_none hi
  rw [hslot i, hnone]
  rfl

/-- An empty Search State begins a fresh pass (R25, R183). -/
theorem SearchState.of_isEmpty {x : SearchState} (h : x.isEmpty = true) :
    x.lastDiscrepancy = 0 ∧ x.lastDeviceFlag = false ∧ x.fresh = true := by
  obtain ⟨⟨hld, -⟩, hflag⟩ : (x.lastDiscrepancy = 0 ∧ x.lastFamilyDiscrepancy = 0) ∧ x.lastDeviceFlag = false := by
    simpa [SearchState.isEmpty] using h
  exact ⟨hld, hflag, by simp [SearchState.fresh, hld, hflag]⟩

/-- A fresh pass begins with an empty registry (R183). -/
theorem beginStep_of_fresh {s : State} (h : s.search.fresh = true) : 
    s.beginStep = { s with registry := s.registry.clear } := if_pos h

theorem beginStep_of_not_fresh {s : State} (h : s.search.fresh = false) : s.beginStep = s := if_neg (by simp [h])

/-! ### `SEARCH_FIRST` (R180) -/

/-- From an empty Search State the search step finds the first device in walk order (R180, R198). -/
theorem search_first_finds {D : List RomId} {s : State} (hl : s.link.Serves D) (hD : D ≠ []) (h0 : (0 : RomId) ∉ D)
    (hx : s.search.isEmpty = true) :
    ∃ t id, SearchReturns (.sFresh, s) (.found id) t ∧ t.link.Serves D ∧ t.search.Found D id ∧ id ∈ D ∧
      (∀ y ∈ D, y ≠ id → WalkedBefore id y) ∧ t.registry.Holds [id] := by
  obtain ⟨hld, hflag, hfresh⟩ := SearchState.of_isEmpty hx
  have hld0 : s.search.lastDiscrepancy.toNat = 0 := by simp [hld]
  obtain ⟨t, id, hrun, hserves, hfound, hinv, hreg⟩ := search_finds hl hD h0 hflag (fun h1 => absurd h1 (by omega))
  rw [hld0] at hinv
  rw [beginStep_of_fresh hfresh] at hreg
  exact ⟨t, id, hrun, hserves, hfound, hinv.mem, fun y hy => hinv.first hy,
    hreg ▸ s.registry.clear_holds.append (by decide) id⟩

theorem Link.Serves.of_onIdeal {s : State} {D : List RomId} (h : s.OnIdeal .plain D) : s.link.Serves D := by
  obtain ⟨e, henv, hplain, hdevices, _, hidle⟩ := h
  exact ⟨e, Link.on_of_env henv, hplain, hdevices, hidle⟩

/-- The flag says that the walk left no device behind (R193). -/
theorem SearchState.Found.flag_iff {x : SearchState} {D : List RomId} {id : RomId} (h : x.Found D id) :
    x.lastDeviceFlag = true ↔ ∀ y ∈ D, ¬ WalkedBefore id y := by
  obtain ⟨_, hfork, hflag⟩ := h
  have hz : x.lastDeviceFlag = true ↔ x.lastDiscrepancy.toNat = 0 := by
    rw [hflag, beq_iff_eq, ← BitVec.toNat_inj]
    rfl
  rw [hz]
  constructor
  · intro h0 y hy hw
    obtain ⟨m, hm, hym⟩ := walkedBefore_iff.1 hw
    have hlt := hfork.last y hy m hm hym
    omega
  · intro hno
    by_contra hne
    obtain ⟨y, hy, hym⟩ := hfork.fork (by omega)
    have hle := hfork.le
    exact hno y hy ⟨_, by omega, hym⟩

/-- Settles O40: from an empty Search State the walk prefers 0 everywhere. -/
theorem firstSearchFindsTheFirstDevice : Obligations.FirstSearchFindsTheFirstDevice := by
  intro a s devices hs hideal hD h0
  let u := { s with search := s.search.reset }.enter a (.searchFirst .sFresh)
  have hentered : Next s u := by
    rw [Next, step_of_dispatching hs]
    simp only [exec, execSearchFirst, hs.1, u]
  obtain ⟨t, id, hsearch, _, hfound, hid, hfirst, hholds⟩ :=
    search_first_finds (s := u) (.of_onIdeal hideal) hD h0 rfl
  have hrun : ReflTransGen Next s ((t.setResId id).finish .found) := .head hentered (searchCaller_first.runs hsearch)
  have hport : t.port = s.port := hsearch.port
  have honly : t.search.lastDeviceFlag = true ↔ ∀ y ∈ devices, y = id := by
    rw [hfound.flag_iff]
    constructor
    · exact fun hno y hy => by_contra fun hne => hno y hy (hfirst y hy hne)
    · exact fun hall y hy hw => hw.ne (hall y hy).symm
  obtain ⟨hcount, hslot, hfree⟩ := hholds.singleton
  exact ⟨_, id, reaches_retire_of_steps hrun rfl, rfl, hid, hfirst, by simp [hport], hfound.rom, hcount, hslot, hfree,
    honly⟩

/-! ### `ENUMERATE` (R197) -/

/-- The enumeration between two search steps: the registry holds the identifiers `ids` and after them `p`, which the last
step found, and every device yet to be found comes after `p`. -/
structure Enumerated (D ids : List RomId) (p : RomId) (s : State) : Prop where
  serves : s.link.Serves D
  holds : s.registry.Holds (ids ++ [p])
  ordered : (ids ++ [p]).Pairwise WalkedBefore
  present : ids ++ [p] ⊆ D
  found : s.search.Found D p
  covers : ∀ y ∈ D, y ∈ ids ++ [p] ∨ WalkedBefore p y

/-- The enumeration is at its end: the registry holds all devices in walk order, and the Search State is empty. -/
structure Complete (D ids : List RomId) (s : State) : Prop where
  holds : s.registry.Holds ids
  ordered : ids.Pairwise WalkedBefore
  perm : ids.Perm D
  empty : s.search.isEmpty = true
  rom : ∀ p ∈ ids.getLast?, romToId s.search.rom = p

theorem nodup_of_ordered {ids : List RomId} (h : ids.Pairwise WalkedBefore) : ids.Nodup := h.imp WalkedBefore.ne

section
variable {D ids : List RomId} {p : RomId} {s : State}

theorem Enumerated.complete (h : Enumerated D ids p s) (hD : D.Nodup) (hflag : s.search.lastDeviceFlag = true) :
    Complete D (ids ++ [p]) s.searchFail := by
  have hno := h.found.flag_iff.1 hflag
  have hmem (y : RomId) : y ∈ ids ++ [p] ↔ y ∈ D :=
    ⟨fun hy => h.present hy, fun hy => (h.covers y hy).resolve_right (hno y hy)⟩
  refine ⟨h.holds, h.ordered, (List.perm_ext_iff_of_nodup (nodup_of_ordered h.ordered) hD).2 hmem, rfl, fun q hq => ?_⟩
  obtain rfl : p = q := by simpa using hq
  exact h.found.rom

/-- A search step of the enumeration that finds another device finds the next one (R198). -/
theorem Enumerated.next (h : Enumerated D ids p s) (h0 : (0 : RomId) ∉ D) (h16 : D.length ≤ 16)
    (hflag : s.search.lastDeviceFlag = false) :
    ∃ t q, SearchReturns (.sFresh, s) (.found q) t ∧ Enumerated D (ids ++ [p]) q t := by
  obtain ⟨hrom, hfork, hz⟩ := h.found
  have hne : s.search.lastDiscrepancy ≠ 0 := by simpa [hflag] using hz
  have h1 : 1 ≤ s.search.lastDiscrepancy.toNat := Nat.one_le_iff_ne_zero.2 fun hn => hne (BitVec.eq_of_toNat_eq hn)
  have hp : p ∈ D := h.present (by simp)
  obtain ⟨t, q, hrun, hserves, hfound, hinv, hreg⟩ :=
    search_finds h.serves (List.ne_nil_of_mem hp) h0 hflag (hrom ▸ hfork.fork)
  rw [beginStep_of_not_fresh (by simpa [SearchState.fresh, hflag] using hne)] at hreg
  rw [hrom] at hinv
  have hpq : WalkedBefore p q := ⟨_, by have := hfork.le; omega, hinv.forks hfork h1⟩
  obtain ⟨_, _, hbefore⟩ := List.pairwise_append.1 h.ordered
  have hordered : (ids ++ [p] ++ [q]).Pairwise WalkedBefore := by
    refine List.pairwise_append.2 ⟨h.ordered, List.pairwise_singleton _ _, fun x hx y hy => ?_⟩
    obtain rfl := List.mem_singleton.1 hy
    rcases List.mem_append.1 hx with hx | hx
    · exact (hbefore x hx p (by simp)).trans hpq
    · exact List.mem_singleton.1 hx ▸ hpq
  have hpresent : ids ++ [p] ++ [q] ⊆ D := List.append_subset.2 ⟨h.present, by simpa using hinv.mem⟩
  have hroom : (ids ++ [p]).length < 16 := by
    have hlength := ((nodup_of_ordered hordered).subperm hpresent).length_le
    rw [List.length_append, List.length_singleton] at hlength
    omega
  refine ⟨t, q, hrun, hserves, hreg ▸ h.holds.append hroom q, hordered, hpresent, hfound, fun y hy => ?_⟩
  by_cases hyq : y = q
  · exact .inl (by simp [hyq])
  · exact (h.covers y hy).imp (fun hy => List.mem_append_left _ hy) fun hw => hinv.next hfork h1 hy hw hyq

/-- From between two search steps the enumeration finds every device left and comes to its end. -/
theorem Enumerated.ends (h : Enumerated D ids p s) (hD : D.Nodup) (h0 : (0 : RomId) ∉ D) (h16 : D.length ≤ 16) :
    ∃ t ids', ReflTransGen Next (s.goto (.enumerate (.eNext .sFresh))) (t.goto (.enumerate .eDone)) ∧ t.port = s.port ∧
      Complete D ids' t := by
  obtain ⟨n, hn⟩ : ∃ n, n = 16 - ids.length := ⟨_, rfl⟩
  induction n generalizing ids p s with
  | zero =>
    have hlength := ((nodup_of_ordered h.ordered).subperm h.present).length_le
    rw [List.length_append, List.length_singleton] at hlength
    omega
  | succ n ih =>
    rcases hflag : s.search.lastDeviceFlag with _ | _
    · obtain ⟨u, q, hrun, hu⟩ := h.next h0 h16 hflag
      obtain ⟨t, ids', hrun', hport, ht⟩ := ih hu (by simp; omega)
      exact ⟨t, ids', ((searchCaller_enumerate (.inr rfl)).runs hrun).trans hrun', hport.trans hrun.port, ht⟩
    · exact ⟨s.searchFail, _, (searchCaller_enumerate (.inr rfl)).runs (search_exhausts hflag), rfl, h.complete hD hflag⟩

end

/-- DISPATCH enters the enumeration, its Search State emptied (R197). -/
def State.enumerating (s : State) (a : Byte) : State :=
  { s with search := s.search.reset }.enter a (.enumerate (.eFirst .sFresh))

theorem next_enumerating {s : State} {a : Byte} (hs : s.Dispatching (.enumerate a)) : Next s (s.enumerating a) := by
  rw [Next, step_of_dispatching hs]
  simp only [exec, execEnumerate, hs.1, State.enumerating]

/-- The enumeration returns the registry's count (R197). -/
theorem next_eDone (s : State) :
    Next (s.goto (.enumerate .eDone)) ((s.setResCount s.registry.count).finish .ok) :=
  step_running (s := s.goto (.enumerate .eDone)) rfl nofun

/-! ### The empty bus -/

/-- Without a device, `reset()` fails when the presence poll's budget is used up (R84, R140). -/
theorem reset_returns_false {l : Link} {e : Ideal} (hon : l.On e) (he : e.Serves []) (htick : e.tickStep = 1) :
    ∃ l', Returns resetPoint (.brIssue, l) false l' ∧ (l.write busResetFrame).Waits (3 * Config.tReset + 1) l' := by
  have hppd : ppd (e.busReset.reads statusPtr) = false := by
    rw [he.busReset.reads, Ideal.busReset, ppd_withPresence, he.devices]
    rfl
  obtain ⟨l', hpoll, _, _, hwaits⟩ :=
    poll_returns_timeout (c := .presence) (T := Config.tReset) hon.write_busReset htick hppd
  have hissue : Moves resetPoint (.brIssue, l) (.brPpd .pT0, l.write busResetFrame) := rfl
  have hpoll' : ReflTransGen (Moves resetPoint) (.brPpd .pT0, l.write busResetFrame) (.brFalse, l') :=
    hpoll.within (fun _ _ => rfl) rfl
  have hbudget : max Config.tReset 1 = Config.tReset := max_eq_left (Nat.le_add_left 1 _)
  exact ⟨l', ⟨_, .head hissue hpoll', rfl⟩, hbudget ▸ hwaits⟩

/-- Without a device, the first search step ends after the bus reset, with an empty registry and an empty Search State. -/
theorem search_finds_none {s : State} (hideal : s.OnIdeal .plain []) (hx : s.search.isEmpty = true) :
    ∃ t, SearchReturns (.sFresh, s) .exhausted t ∧ t.search = s.search.reset ∧ t.registry = s.registry.clear ∧
      (s.link.write busResetFrame).Waits (3 * Config.tReset + 1) t.link := by
  obtain ⟨e, henv, hplain, hdevices, htick, hidle⟩ := hideal
  obtain ⟨_, hflag, hempty⟩ := SearchState.of_isEmpty hx
  obtain ⟨l, hreset, hwaits⟩ := reset_returns_false (Link.on_of_env henv) ⟨hplain, hdevices, hidle⟩ htick
  let u : State := { s with registry := s.registry.clear }
  have hbegin : s.beginStep = u := beginStep_of_fresh hempty
  have hfresh : SearchMoves (.sFresh, s) (.sLdf, u) := ⟨by simp [Moves, searchPoint, hbegin], nofun⟩
  have hldf : SearchMoves (.sLdf, u) (.sReset .brIssue, u) := ⟨by simp [Moves, searchPoint, u, hflag], nofun⟩
  have hrun : ReflTransGen SearchMoves (.sReset .brIssue, u) (.sFail, u.withLink l) :=
    search_runs_reset hreset fun p x hp => by simp [searchPoint, hp, State.withLink]
  exact ⟨(u.withLink l).searchFail, ⟨_, .head hfresh (.head hldf hrun), rfl⟩, rfl, rfl, hwaits⟩

/-- Settles O39: the first search step fails in its bus reset, and the enumeration ends. -/
theorem emptyBusEnumeratesToZero : Obligations.EmptyBusEnumeratesToZero := by
  intro a s hs hideal
  obtain ⟨t, hsearch, hempty, hreg, new, htrace, hlength, hsent⟩ := search_finds_none (s := s.enumerating a) hideal rfl
  have hport : t.port = s.port := hsearch.port
  have hrun : ReflTransGen Next s (t.goto (.enumerate .eDone)) :=
    .head (next_enumerating hs) ((searchCaller_enumerate (.inl rfl)).runs hsearch)
  refine ⟨_, new, reaches_retire_of_steps (hrun.tail (next_eDone t)) rfl, rfl, ?_, hreg, ?_, ?_, htrace, hlength, hsent⟩
  · simp [hport, hreg, Registry.clear]
  · exact hempty ▸ rfl
  · exact hempty ▸ rfl

/-! ### Whole passes -/

/-- A whole pass over at most 16 devices: it ends with all of them registered in walk order (R197, R198). -/
theorem enumerate_completes {a : Byte} {s : State} {D : List RomId} (hs : s.Dispatching (.enumerate a))
    (hideal : s.OnIdeal .plain D) (hD : D.Nodup) (h0 : (0 : RomId) ∉ D) (h16 : D.length ≤ 16) :
    ∃ t ids, Reaches s t ∧ t.ctl.fsm = .idle ∧ t.port = { s.port with resCode := .ok, resCount := t.registry.count } ∧
      Complete D ids t := by
  suffices h : ∃ t ids, ReflTransGen Next (s.enumerating a) (t.goto (.enumerate .eDone)) ∧ t.port = s.port ∧
      Complete D ids t by
    obtain ⟨t, ids, hrun, hport, ⟨hholds, hordered, hperm, hempty, hrom⟩⟩ := h
    have hend := ReflTransGen.head (next_enumerating hs) (hrun.tail (next_eDone t))
    exact ⟨_, ids, reaches_retire_of_steps hend rfl, rfl, by simp [hport], hholds, hordered, hperm, hempty, hrom⟩
  rcases D with _ | ⟨x, xs⟩
  · obtain ⟨t, hsearch, hempty, hreg, _⟩ := search_finds_none (s := s.enumerating a) hideal rfl
    exact ⟨t, [], (searchCaller_enumerate (.inl rfl)).runs hsearch, hsearch.port, hreg ▸ Registry.clear_holds _, .nil, .nil,
      hempty ▸ rfl, nofun⟩
  · obtain ⟨u, id, hsearch, hserves, hfound, hid, hfirst, hholds⟩ :=
      search_first_finds (s := s.enumerating a) (.of_onIdeal hideal) (List.cons_ne_nil x xs) h0 rfl
    have hu : Enumerated (x :: xs) [] id u :=
      ⟨hserves, hholds, List.pairwise_singleton _ _, by simpa using hid, hfound, fun y hy => by
        by_cases hne : y = id
        · exact .inl (by simp [hne])
        · exact .inr (hfirst y hy hne)⟩
    obtain ⟨t, ids, hrun, hport, ht⟩ := hu.ends hD h0 h16
    exact ⟨t, ids, ((searchCaller_enumerate (.inl rfl)).runs hsearch).trans hrun, hport.trans hsearch.port, ht⟩

/-- Settles O42: every search step after the first finds the next device in walk order, until none is left. -/
theorem enumerationIsCompleteAndOrdered : Obligations.EnumerationIsCompleteAndOrdered := by
  intro a s devices hs hideal hnodup h0 h16
  obtain ⟨t, ids, hreach, hidle, hport, ⟨⟨hcount, hslot⟩, hordered, hperm, hempty, _⟩⟩ :=
    enumerate_completes hs hideal hnodup h0 h16
  exact ⟨t, ids, hreach, hidle, hperm, hordered, hcount.trans hperm.length_eq, hslot, hport, hempty⟩

/-- Settles O41: the pass over one device. -/
theorem singleDevicePass : Obligations.SingleDevicePass := by
  intro a s id hs hideal hid
  obtain ⟨t, ids, hreach, hidle, hport, ⟨hholds, _, hperm, hempty, hrom⟩⟩ :=
    enumerate_completes hs hideal (List.nodup_singleton id) (by simpa using hid.symm) (by simp)
  obtain rfl : ids = [id] := List.perm_singleton.1 hperm
  obtain ⟨hcount, hslot, hfree⟩ := hholds.singleton
  exact ⟨t, hreach, hidle, hcount ▸ hport, hcount, hslot, hfree, hempty,
    romToId_injective ((hrom id rfl).trans (romToId_idToRom id).symm)⟩

end Sys2Proof.Machine
end

/-! ## The four encoding layers (R100 to R117) -/

section
namespace Sys2Proof.Machine

/-! ### Decoding an encoding -/

/-- The frame of a bridge command decodes to it (R101, R102). -/
theorem decodeFrame_of_encode {i : Instr} {f : Frame} (h : encode i = .bridge f) : decodeFrame f = .ok i := by
  cases i <;> cases h <;> rfl

theorem decodePointer_of_encode {i : Instr} {b : Byte} (h : encode i = .pointer b) : decodePointer b = .ok i := by
  cases i <;> cases h <;> rfl

theorem decodeBus_of_encode {i : Instr} {b : Byte} (h : encode i = .bus b) : decodeBus b = .ok i := by
  cases i <;> cases h <;> rfl

/-- Settles O1: by the layer the encoding stands in. -/
theorem decodeEncodeRoundTrip : Obligations.DecodeEncodeRoundTrip := by
  intro i
  cases h : encode i with
  | hostWord w => exact congrArg Except.ok (decodeHostWord_of_encode h)
  | bridge f => exact decodeFrame_of_encode h
  | pointer b => exact decodePointer_of_encode h
  | bus b => exact decodeBus_of_encode h

theorem decode_of_encode {i : Instr} {c : Code} (h : encode i = c) : decode c = .ok i :=
  h ▸ decodeEncodeRoundTrip i

/-- Settles O3: each word is the encoding of its instruction. -/
theorem sampleWordsDecode : Obligations.SampleWordsDecode := by
  refine ⟨?_, ?_, ?_, ?_, ?_, ?_, ?_, ?_, ?_, ?_, ?_, ?_, ?_, ?_, ?_, ?_, ?_, ?_, ?_, ?_, ?_, ?_, ?_, ?_⟩ <;>
    exact decode_of_encode rfl

/-! ### Encoding what was decoded -/

/-- A host command word is its two fields (R109). -/
theorem hostWordOf_fields (w : CmdWord) : hostWordOf (opField w) (arg8Field w) = w :=
  (BitVec.extractLsb'_append_extractLsb'_eq_extractLsb' rfl).trans (BitVec.extractLsb'_eq_self ..)

/-- All sixteen operation codes name an instruction, each its own (R110, R114). -/
theorem encode_decodeHostWord (w : CmdWord) : encode (decodeHostWord w) = .hostWord w := by
  have hw := hostWordOf_fields w
  have hop {k : BitVec 4} (hk : (opField w).toNat = k.toNat) : Code.hostWord (hostWordOf k (arg8Field w)) = .hostWord w := by
    rw [← BitVec.eq_of_toNat_eq hk, hw]
  have hlt := (opField w).isLt
  unfold decodeHostWord
  dsimp only
  split
  case h_16 =>
    simp only [imp_false] at *
    exact hop (k := 0xF) (show (opField w).toNat = 15 by omega)
  all_goals next h => exact hop h

/-- What a frame decodes to is a bridge command, and not the pointer code or bus command that sends the same bytes. -/
theorem encode_of_decodeFrame {f : Frame} {i : Instr} (h : decodeFrame f = .ok i) : encode i = .bridge f := by
  have hf := linkFrame_of_decodeFrame h
  cases i with
  | brDeviceReset | brSetReadPointer _ | brConfigWrite _ | brChannelSelect _ | brBusReset | brWriteByte _ | brReadByte
  | brTriplet _ => cases hf; rfl
  | ptrStatus | ptrData | ptrChannel | ptrConfig | busSearch | busMatchRom => cases hf; cases h
  | owReset _ | busyWait _ | readReg _ | writeByte _ | readByte _ | triplet _ | devReset _ | cfgWrite _ | searchFirst _
  | searchNext _ | enumerate _ | regLookup _ | regGetall _ | reserved0 _ | reservedE _ | reservedF _ => cases hf

theorem encode_of_decodePointer {b : Byte} {i : Instr} (h : decodePointer b = .ok i) : encode i = .pointer b := by
  unfold decodePointer at h
  split_ifs at h <;> cases h <;> subst b <;> rfl

theorem encode_of_decodeBus {b : Byte} {i : Instr} (h : decodeBus b = .ok i) : encode i = .bus b := by
  unfold decodeBus at h
  split_ifs at h <;> cases h <;> subst b <;> rfl

/-- Settles O2: by the layer the word stands in. -/
theorem encodeDecodeRoundTrip : Obligations.EncodeDecodeRoundTrip := by
  intro c i h
  cases c with
  | hostWord w =>
    cases h
    exact encode_decodeHostWord w
  | bridge f => exact encode_of_decodeFrame h
  | pointer b => exact encode_of_decodePointer h
  | bus b => exact encode_of_decodeBus h

/-! ### Lengths, nibbles, the configuration byte -/

/-- Settles O4: the seven codes at the head of a list of bytes, and the nibbles of each code of the tables. -/
theorem commandLengthAndNibbles : Obligations.CommandLengthAndNibbles := by
  refine ⟨fun p rest => ⟨rfl, rfl, rfl, rfl, rfl, rfl, rfl⟩, fun i f h => ?_, fun i b h => ?_⟩
  · cases i <;> cases h <;> simp
  · cases i <;> cases h <;> rfl

/-- Settles O6: the formula at each of the eight flag combinations, and the table. -/
theorem configurationEncoding : Obligations.ConfigurationEncoding := by
  refine ⟨fun apu spu spd => ?_, rfl, rfl, rfl, rfl, rfl, rfl, rfl, rfl⟩
  cases apu <;> cases spu <;> cases spd <;> rfl

end Sys2Proof.Machine
end

/-! ## Reserved codes, issue points, the preferred direction (R101, R114, R187) -/

section
namespace Sys2Proof.Machine

/-! ### Reserved codes -/

theorem illegal_dispatch {s : State} (h : s.ctl.fsm = .dispatch) (op : BitVec 4) (a : Byte) :
    s.illegal op a = .next (s.finish .illegal) := by
  rw [State.illegal, h]

/-- Settles O13: the three codes share the one meaning. -/
theorem reservedCodesAreIllegal : Obligations.ReservedCodesAreIllegal := fun a _ hs =>
  ⟨illegal_dispatch hs 0x0 a, illegal_dispatch hs 0xE a, illegal_dispatch hs 0xF a⟩

/-! ### Points that send a frame -/

/-- Settles O15: the frame is sent where the operation's own pseudocode sends it. -/
theorem issuePointRunsItsCommand : Obligations.IssuePointRunsItsCommand := fun _ _ _ => exec_running_of_issuing

/-- At a point that sends a bridge command a step does what any instruction with these bytes does. -/
theorem step_of_issuing {s : State} {f : Frame} {i : Instr} (hf : s.ctl.issuing = some f) (hd : Decodes f)
    (hi : linkFrame i = some f) : step s = exec i s := by
  obtain ⟨j, hj⟩ := hd
  rw [step_of_fetched ((fetched_issuing hf).trans (congrArg some hj)), exec_eq_issue_of_linkFrame hi]
  exact exec_eq_issue_of_linkFrame (linkFrame_of_decodeFrame hj) s

/-- A pointer code is sent in the set-read-pointer command that carries it (R103, log entry 10). -/
theorem linkFrame_of_decodePointer {b : Byte} {i : Instr} (h : decodePointer b = .ok i) :
    linkFrame i = some (selectFrame b) := by
  have hi : encode i = .pointer b := encode_of_decodePointer h
  cases i <;> cases hi <;> rfl

/-- A bus command is sent in the write-byte command that carries it (R104, log entry 10). -/
theorem linkFrame_of_decodeBus {b : Byte} {i : Instr} (h : decodeBus b = .ok i) :
    linkFrame i = some (writeByteFrame b) := by
  have hi : encode i = .bus b := encode_of_decodeBus h
  cases i <;> cases hi <;> rfl

/-- A frame's issue point sends what the command latch holds there. -/
theorem issuing_issuePointOf (c : Control) (f : Frame) :
    ({ c with fsm := issuePointOf f, cmd := f } : Control).issuing = some f := by
  unfold issuePointOf
  by_cases hreset : f = busResetFrame
  · rw [if_pos hreset, hreset]
    rfl
  · rw [if_neg hreset]
    split_ifs <;> rfl

/-- A frame is placed where it is sent. -/
theorem place_bridge_issuing (s : State) (f : Frame) : (s.place (.bridge f)).ctl.issuing = some f := by
  obtain ⟨code, param⟩ := f
  simp only [State.place]
  split
  · next p hcode =>
    rw [beq_iff_eq.1 hcode]
    rfl
  · exact issuing_issuePointOf s.ctl _

/-- A word that decodes, placed where the machine fetches, is what the next step runs. -/
theorem step_place {c : Code} {i : Instr} (h : decode c = .ok i) (s : State) : step (s.place c) = exec i (s.place c) := by
  cases c with
  | hostWord w =>
    cases h
    exact step_of_fetched (fetched_dispatch rfl)
  | bridge f => exact step_of_issuing (place_bridge_issuing s f) ⟨i, h⟩ (linkFrame_of_decodeFrame h)
  | pointer b => exact step_of_issuing rfl (selectFrame_decodes b) (linkFrame_of_decodePointer h)
  | bus b => exact step_of_issuing rfl ⟨.brWriteByte b, rfl⟩ (linkFrame_of_decodeBus h)

/-- Settles O5: the table's word is one of the four layers, and decodes. -/
theorem tableWordRunsItsInstruction : Obligations.TableWordRunsItsInstruction := by
  intro s nbits w i h
  refine step_place ?_ s
  unfold decodeTableWord at h
  cases hd : decode (tableCode nbits w) with
  | error e => simp [hd, Except.toOption] at h
  | ok j => simpa [hd, Except.toOption] using h

/-! ### The preferred direction -/

/-- Settles O31: the three cases of `preferredBit` at the walk's position. -/
theorem tieBreakRule : Obligations.TieBreakRule := by
  intro s hw
  have ⟨h1, _, _, _⟩ := hw
  obtain ⟨k, hk⟩ : ∃ k, s.walk.n.toNat = k + 1 := ⟨s.walk.n.toNat - 1, by omega⟩
  have hd := preferred_eq (x := s.search) hw hk
  unfold preferredBit at hd
  refine ⟨preferred s.search s.walk, rfl, fun hlt => ?_, fun heq => ?_, fun hgt => ?_⟩
  · have hlt : k + 1 < s.search.lastDiscrepancy.toNat := hk ▸ hlt
    rw [hd, if_pos hlt, hk, Nat.add_sub_cancel]
  · have heq : k + 1 = s.search.lastDiscrepancy.toNat := hk ▸ congrArg BitVec.toNat heq
    rw [hd, if_neg heq.not_lt, decide_eq_true heq]
  · have hgt : s.search.lastDiscrepancy.toNat < k + 1 := hk ▸ hgt
    rw [hd, if_neg hgt.not_gt, decide_eq_false hgt.ne']

end Sys2Proof.Machine
end

/-! ## The command latch (R113, R114, R156 to R160, R186, R188)

A step sends nothing but the frame its point issues, and the latch holds the command of the operation from the step that
loads it until the command is sent. -/

section
namespace Sys2Proof.Machine

/-! ### The frames the block may send -/

theorem FrameAllowed.decodes {f : Frame} (h : FrameAllowed f) : Decodes f := by
  obtain ⟨i, hi, _, _⟩ := h
  exact ⟨i, hi⟩

theorem frameAllowed_select (ptr : Byte) : FrameAllowed (selectFrame ptr) := ⟨.brSetReadPointer ptr, rfl, rfl, nofun⟩

theorem frameAllowed_busReset : FrameAllowed busResetFrame := ⟨.brBusReset, rfl, rfl, nofun⟩

theorem frameAllowed_deviceReset : FrameAllowed deviceResetFrame := ⟨.brDeviceReset, rfl, rfl, nofun⟩

theorem frameAllowed_readByte : FrameAllowed readByteFrame := ⟨.brReadByte, rfl, rfl, nofun⟩

theorem frameAllowed_writeByte (v : Byte) : FrameAllowed (writeByteFrame v) := ⟨.brWriteByte v, rfl, rfl, nofun⟩

theorem isDirection_tripletDirByte (d : Bool) : (tripletDirByte d).isDirection = true := by
  cases d <;> rfl

theorem frameAllowed_triplet (d : Bool) : FrameAllowed (tripletFrame (tripletDirByte d)) :=
  ⟨.brTriplet _, rfl, isDirection_tripletDirByte d, nofun⟩

theorem configByte_low (f : BitVec 4) : (configByte f).extractLsb' 0 4 = f := BitVec.extractLsb'_append_eq_right

theorem configByte_high (f : BitVec 4) : (configByte f).extractLsb' 4 4 = ~~~f := BitVec.extractLsb'_append_eq_left

/-- The byte `CFG_WRITE` sends is one `CfgEncode` can give (R106, R107). -/
theorem isConfig_configByte (a : Byte) : (configByte (configFlags a)).isConfig = true := by
  have hbit : (configByte (configFlags a))[1] = false := by
    rw [← BitVec.getLsbD_eq_getElem, configByte, BitVec.getLsbD_append]
    simp [configFlags]
  simp [Byte.isConfig, hbit, configByte_low, configByte_high]

theorem frameAllowed_configWrite (a : Byte) : FrameAllowed (configWriteFrame (configByte (configFlags a))) :=
  ⟨.brConfigWrite _, rfl, isConfig_configByte a, nofun⟩

/-! ### The frame of a point -/

theorem PollPt.allowed_of_issuing {p : PollPt} {f : Frame} (h : p.issuing = some f) : FrameAllowed f := by
  cases p with
  | pSample r =>
    cases r <;> cases h
    exact frameAllowed_select _
  | pT0 | pTest | pTime | pOk | pTimeout => cases h

theorem ReadPt.allowed_of_issuing {ptr : Byte} {p : ReadPt} {f : Frame} (h : p.issuing ptr = some f) : FrameAllowed f := by
  cases p <;> cases h
  exact frameAllowed_select ptr

/-- `Cmd` sends its argument while the command is pending, and selections of the status register. -/
theorem CmdPt.allowed_of_issuing {cmd : Frame} {p : CmdPt} {f : Frame} (hcmd : p.pending = true → FrameAllowed cmd)
    (h : p.issuing cmd = some f) : FrameAllowed f := by
  cases p with
  | cPre q | cPost q => exact PollPt.allowed_of_issuing h
  | cIssue => cases h; exact hcmd rfl
  | cOk | cFail => cases h

theorem ResetPt.allowed_of_issuing {p : ResetPt} {f : Frame} (h : p.issuing = some f) : FrameAllowed f := by
  cases p with
  | brPpd q | brBusy q => exact PollPt.allowed_of_issuing h
  | brIssue => cases h; exact frameAllowed_busReset
  | brTrue | brFalse => cases h

theorem SearchPt.allowed_of_issuing {d : Bool} {cmd : Frame} {p : SearchPt} {f : Frame} (hcmd : searchCmdOk d cmd p)
    (h : p.issuing cmd = some f) : FrameAllowed f := by
  cases p with
  | sReset q => exact ResetPt.allowed_of_issuing h
  | sCmd q => exact CmdPt.allowed_of_issuing (fun hq => hcmd hq ▸ frameAllowed_writeByte _) h
  | sTrip q => exact CmdPt.allowed_of_issuing (fun hq => hcmd hq ▸ frameAllowed_triplet d) h
  | sFresh | sLdf | sInit | sDir | sDecode | sAbsent | sZero | sStore | sAdv | sFin | sAllzero | sReg | sFound
    | sFail => cases h

/-- The condition of the point control is at, as a condition of the latch. -/
theorem cmdOk_of_fsm {s : State} {f : Fsm} (h : s.ctl.fsm = f) (hs : s.CmdOk) : (s.goto f).CmdOk := by
  subst f
  exact hs

/-- Whatever a point issues is an allowed frame (R113, R114). -/
theorem allowed_of_issuing {s : State} (hs : s.CmdOk) {f : Frame} (hf : s.ctl.issuing = some f) : FrameAllowed f := by
  unfold State.CmdOk at hs
  unfold Control.issuing at hf
  cases hfsm : s.ctl.fsm <;> simp only [hfsm] at hs hf
  case owReset p => exact ResetPt.allowed_of_issuing hf
  case busyWait p | readRegWait p => exact PollPt.allowed_of_issuing hf
  case readReg p | readByteData p | cfgReadBack p => exact ReadPt.allowed_of_issuing hf
  case writeByte p => exact CmdPt.allowed_of_issuing (fun hp => hs hp ▸ frameAllowed_writeByte _) hf
  case readByte p => exact CmdPt.allowed_of_issuing (fun hp => hs hp ▸ frameAllowed_readByte) hf
  case triplet p => exact CmdPt.allowed_of_issuing (fun hp => hs hp ▸ frameAllowed_triplet _) hf
  case devReset p => exact CmdPt.allowed_of_issuing (fun hp => hs hp ▸ frameAllowed_deviceReset) hf
  case cfgWrite p => exact CmdPt.allowed_of_issuing (fun hp => hs hp ▸ frameAllowed_configWrite _) hf
  case searchFirst p | searchNext p => exact SearchPt.allowed_of_issuing hs hf
  case enumerate p =>
    cases p with
    | eFirst p | eNext p => exact SearchPt.allowed_of_issuing hs hf
    | eDone => cases hf
  all_goals cases hf

/-! ### What a point sends -/

/-- From one link side to the next, nothing is sent but this frame. -/
def Link.Sends (l : Link) (o : Option Frame) (l' : Link) : Prop := ∀ f, l'.trace = sent f :: l.trace → o = some f

section
variable {l l' : Link} {o : Option Frame}

theorem Link.sends_of_trace (h : l'.trace = l.trace) : l.Sends o l' := by
  intro f hf
  simp [h] at hf

theorem Link.sends_write (l : Link) (f : Frame) : l.Sends (some f) (l.write f) := by
  intro g hg
  simpa [sent] using hg

theorem Link.sends_read (ptr : Byte) : l.Sends o (l.read ptr) := by
  intro f hf
  simp [sent] at hf

theorem Link.sends_tick : l.Sends o l.tick := by
  intro f hf
  simp [sent] at hf

end

theorem readPoint_sends (ptr : Byte) (p : ReadPt) (l : Link) : l.Sends (p.issuing ptr) (readPoint ptr p l).1 := by
  cases p with
  | rrSel => exact l.sends_write _
  | rrRd => exact Link.sends_read ptr

theorem pollPoint_sends (c : Cond) (T : Nat) (p : PollPt) (l : Link) : l.Sends p.issuing (pollPoint c T p l).1 := by
  cases p with
  | pT0 | pTime => exact Link.sends_tick
  | pSample r => exact readPoint_sends statusPtr r l
  | pTest | pOk | pTimeout => exact Link.sends_of_trace rfl

theorem cmdPoint_sends (cmd : Frame) (p : CmdPt) (l : Link) : l.Sends (p.issuing cmd) (cmdPoint cmd p l).1 := by
  cases p with
  | cPre q | cPost q => exact pollPoint_sends _ _ q l
  | cIssue => exact l.sends_write cmd
  | cOk | cFail => exact Link.sends_of_trace rfl

theorem resetPoint_sends (p : ResetPt) (l : Link) : l.Sends p.issuing (resetPoint p l).1 := by
  cases p with
  | brIssue => exact l.sends_write _
  | brPpd q | brBusy q => exact pollPoint_sends _ _ q l
  | brTrue | brFalse => exact Link.sends_of_trace rfl

theorem searchPoint_sends (p : SearchPt) (s : State) :
    s.link.Sends (p.issuing s.ctl.cmd) (searchPoint p s).1.link := by
  cases p with
  | sReset q =>
    have hq := resetPoint_sends q s.link
    rcases hr : resetPoint q s.link with ⟨l, q' | _ | _⟩ <;> simp only [searchPoint, hr] at hq ⊢ <;> exact hq
  | sCmd q | sTrip q => exact cmdPoint_sends _ q s.link
  | sFresh => exact Link.sends_of_trace (by rw [searchPoint, beginStep_link])
  | sZero => exact Link.sends_of_trace (by rw [searchPoint, trackZero_link])
  | sLdf | sInit | sDir | sDecode | sAbsent | sStore | sAdv | sFin | sAllzero | sReg | sFound | sFail =>
    exact Link.sends_of_trace rfl

/-! ### The latch from point to point -/

theorem Flow.meets_true {π ρ : Type} (f : Flow π ρ) : f.Meets (fun _ => True) fun _ => True := by
  cases f <;> trivial

/-- A command once sent is not pending again (R154). -/
theorem cmdPoint_pending (cmd : Frame) (p : CmdPt) (l : Link) :
    (cmdPoint cmd p l).2.Meets (fun q => q.pending = true → p.pending = true) fun _ => True := by
  cases p with
  | cPre q =>
    refine (busyPoint q l).2.meets_true.within (fun _ _ hp => hp) fun r _ => ?_
    cases r <;> exact fun _ => rfl
  | cPost q =>
    refine (busyPoint q l).2.meets_true.within (fun _ _ hp => hp) fun r _ => ?_
    cases r <;> exact id
  | cIssue => exact fun _ => rfl
  | cOk | cFail => trivial

/-- The search step loads its commands where it calls `Cmd`, and keeps them while they are pending (R186, R188). -/
theorem searchPoint_cmdOk {p : SearchPt} {s : State} (h : searchCmdOk s.walk.d s.ctl.cmd p) :
    (searchPoint p s).2.Meets (searchCmdOk (searchPoint p s).1.walk.d (searchPoint p s).1.ctl.cmd) fun _ => True := by
  cases p with
  | sReset q =>
    rcases hq : resetPoint q s.link with ⟨l, q' | _ | _⟩ <;> simp only [searchPoint, hq]
    · trivial
    · trivial
    · exact fun _ => rfl
  | sCmd q | sTrip q =>
    refine (cmdPoint_pending s.ctl.cmd q s.link).within (fun _ hq hp => h (hq hp)) fun r _ => ?_
    cases r <;> trivial
  | sDir => exact fun _ => rfl
  | sLdf =>
    show searchCmdOk _ _ (if s.search.lastDeviceFlag then .sFail else .sReset .brIssue)
    split <;> trivial
  | sAbsent =>
    show searchCmdOk _ _ (if noDevice s.link.snap then .sFail else .sZero)
    split <;> trivial
  | sAdv =>
    show searchCmdOk _ _ (if s.walk.advance.more then .sDir else .sFin)
    split <;> trivial
  | sAllzero =>
    show searchCmdOk _ _ (if s.search.allZero then .sFail else .sReg)
    split <;> trivial
  | sFresh | sInit | sDecode | sZero | sStore | sFin | sReg | sFound | sFail => trivial

/-! ### The calls of the host operations -/

/-- A step keeps the latch's condition and sends nothing but the frame its point issues. -/
def State.KeepsCommand (s t : State) : Prop := t.CmdOk ∧ s.link.Sends s.ctl.issuing t.link

section
variable {s : State}

theorem callCmd_keepsCommand {o : Op} {p : CmdPt} {stay : CmdPt → Fsm} {ok : State → State}
    (hissuing : s.ctl.issuing = p.issuing s.ctl.cmd)
    (hstay : ∀ l q, (q.pending = true → p.pending = true) → ((s.withLink l).goto (stay q)).CmdOk)
    (hok : ∀ u, (ok u).CmdOk ∧ (ok u).link = u.link) : s.KeepsCommand (s.callCmd o p stay ok) := by
  have hsends := cmdPoint_sends s.ctl.cmd p s.link
  have hpending := cmdPoint_pending s.ctl.cmd p s.link
  unfold State.KeepsCommand State.callCmd
  rw [hissuing]
  split <;> rename_i hp <;> rw [hp] at hsends hpending
  · exact ⟨hstay _ _ hpending, hsends⟩
  · exact ⟨(hok _).1, by rw [(hok _).2]; exact hsends⟩
  · exact ⟨trivial, hsends⟩

theorem callRead_keepsCommand {ptr : Byte} {p : ReadPt} {stay : ReadPt → Fsm} {ok : State → State}
    (hissuing : s.ctl.issuing = p.issuing ptr) (hstay : ∀ (u : State) q, (u.goto (stay q)).CmdOk)
    (hok : ∀ u, (ok u).CmdOk ∧ (ok u).link = u.link) : s.KeepsCommand (s.callRead ptr p stay ok) := by
  have hsends := readPoint_sends ptr p s.link
  unfold State.KeepsCommand State.callRead
  rw [hissuing]
  split <;> rename_i hp <;> rw [hp] at hsends
  · exact ⟨hstay _ _, hsends⟩
  · exact ⟨(hok _).1, by rw [(hok _).2]; exact hsends⟩

theorem callPoll_keepsCommand {T : Nat} {p : PollPt} {stay : PollPt → Fsm} {ok timeout : State → State}
    (hissuing : s.ctl.issuing = p.issuing) (hstay : ∀ (u : State) q, (u.goto (stay q)).CmdOk)
    (hok : ∀ u, (ok u).CmdOk ∧ (ok u).link = u.link)
    (htimeout : ∀ u, (timeout u).CmdOk ∧ (timeout u).link = u.link) :
    s.KeepsCommand (s.callPoll T p stay ok timeout) := by
  have hsends := pollPoint_sends .notBusy T p s.link
  unfold State.KeepsCommand State.callPoll
  rw [hissuing]
  split <;> rename_i hp <;> rw [hp] at hsends
  · exact ⟨hstay _ _, hsends⟩
  · exact ⟨(hok _).1, by rw [(hok _).2]; exact hsends⟩
  · exact ⟨(htimeout _).1, by rw [(htimeout _).2]; exact hsends⟩

/-- A point of the search step: control stays in the step, or goes to a point where nothing is asked of the latch. -/
theorem searchPoint_keepsCommand {p : SearchPt} {t t' : State} {f : Flow SearchPt SearchResult}
    (hp : searchPoint p s = (t, f)) (hissuing : s.ctl.issuing = p.issuing s.ctl.cmd)
    (hcmd : searchCmdOk s.walk.d s.ctl.cmd p) (hlink : t'.link = t.link)
    (ht : f.Meets (fun q => searchCmdOk t.walk.d t.ctl.cmd q → t'.CmdOk) fun _ => t'.CmdOk) : s.KeepsCommand t' := by
  have hsends := searchPoint_sends p s
  have hnext := searchPoint_cmdOk hcmd
  rw [hp] at hsends hnext
  refine ⟨?_, hissuing ▸ hlink ▸ hsends⟩
  cases f with
  | goto q => exact ht hnext
  | done r => exact ht

theorem callSearch_keepsCommand {p : SearchPt} {stay : SearchPt → Fsm} (hissuing : s.ctl.issuing = p.issuing s.ctl.cmd)
    (hcmd : searchCmdOk s.walk.d s.ctl.cmd p)
    (hstay : ∀ (u : State) q, searchCmdOk u.walk.d u.ctl.cmd q → (u.goto (stay q)).CmdOk) :
    s.KeepsCommand (s.callSearch p stay) := by
  unfold State.callSearch
  split
  · next hp => exact searchPoint_keepsCommand hp hissuing hcmd rfl (hstay _ _)
  · next t r hp =>
    refine searchPoint_keepsCommand hp hissuing hcmd (reportSearch_link t r) ?_
    cases r <;> trivial

/-! ### The operations -/

/-- At each of its points an operation goes on or returns, and keeps the latch's condition. -/
theorem exec_running_keepsCommand (hs : s.CmdOk) {i : Instr} (hi : s.ctl.running = some i) :
    ∃ t, exec i s = .next t ∧ s.KeepsCommand t := by
  have hissuing {o : Option Frame} {f : Fsm} (hfsm : s.ctl.fsm = f) (ho : ({ s.ctl with fsm := f } : Control).issuing = o) :
      s.ctl.issuing = o := by
    subst f
    exact ho
  unfold Control.running at hi
  cases hfsm : s.ctl.fsm <;> simp only [hfsm, reduceCtorEq, Option.some.injEq] at hi <;> subst hi <;>
    have hok := cmdOk_of_fsm hfsm hs
  case owReset p =>
    have hsends := resetPoint_sends p s.link
    simp only [exec, execOwReset, hfsm]
    rcases hp : resetPoint p s.link with ⟨l, q | _ | _⟩ <;> rw [hp] at hsends <;>
      exact ⟨_, rfl, trivial, hissuing hfsm rfl ▸ hsends⟩
  case busyWait p | readRegWait p =>
    simp only [exec, execBusyWait, execReadReg, hfsm]
    exact ⟨_, rfl, callPoll_keepsCommand (hissuing hfsm rfl) (fun _ _ => trivial) (fun _ => ⟨trivial, rfl⟩)
      fun _ => ⟨trivial, rfl⟩⟩
  case readReg p | readByteData p | cfgReadBack p =>
    simp only [exec, execReadReg, execReadByte, execCfgWrite, hfsm]
    exact ⟨_, rfl, callRead_keepsCommand (hissuing hfsm rfl) (fun _ _ => trivial) fun _ => ⟨trivial, rfl⟩⟩
  case writeByte p | readByte p | triplet p | devReset p | cfgWrite p =>
    simp only [exec, execWriteByte, execReadByte, execTriplet, execDevReset, execCfgWrite, hfsm]
    exact ⟨_, rfl, callCmd_keepsCommand (hissuing hfsm rfl) (fun _ _ hq hp => hok (hq hp)) fun _ => ⟨trivial, rfl⟩⟩
  case cfgCompare =>
    simp only [exec, execCfgWrite, hfsm]
    split <;> exact ⟨_, rfl, trivial, Link.sends_of_trace rfl⟩
  case searchFirst p | searchNext p =>
    simp only [exec, execSearchFirst, execSearchNext, hfsm]
    exact ⟨_, rfl, callSearch_keepsCommand (hissuing hfsm rfl) hok fun _ _ hq => hq⟩
  case enumerate p =>
    simp only [exec, execEnumerate, hfsm]
    cases p with
    | eFirst p | eNext p =>
      rcases hp : searchPoint p s with ⟨t, q | r⟩ <;> simp only [hp]
      · exact ⟨_, rfl, searchPoint_keepsCommand hp (hissuing hfsm rfl) hok rfl fun hq => hq⟩
      · refine ⟨_, rfl, searchPoint_keepsCommand hp (hissuing hfsm rfl) hok rfl ?_⟩
        cases r <;> trivial
    | eDone => exact ⟨_, rfl, trivial, Link.sends_of_trace rfl⟩
  case regLookup p =>
    simp only [exec, execRegLookup, hfsm]
    cases p with
    | gScan => dsimp only; split <;> exact ⟨_, rfl, trivial, Link.sends_of_trace rfl⟩
    | gDone => exact ⟨_, rfl, trivial, Link.sends_of_trace rfl⟩
  case regGetall p =>
    simp only [exec, execRegGetall, hfsm]
    cases p <;> exact ⟨_, rfl, trivial, Link.sends_of_trace rfl⟩

end

/-- DISPATCH enters an operation with its command, if it is one command, in the latch; a reserved code completes. -/
theorem exec_dispatch_keepsCommand {i : Instr} (hi : HostLevel i) {s : State} (hs : s.ctl.fsm = .dispatch) :
    ∃ t, exec i s = .next t ∧ s.KeepsCommand t := by
  obtain ⟨w, hw⟩ := hi
  cases i with
  | owReset a | busyWait a | searchFirst a | searchNext a | enumerate a | regLookup a | regGetall a =>
    simp only [exec, execOwReset, execBusyWait, execSearchFirst, execSearchNext, execEnumerate, execRegLookup,
      execRegGetall, hs]
    exact ⟨_, rfl, trivial, Link.sends_of_trace rfl⟩
  | readReg a =>
    simp only [exec, execReadReg, hs]
    refine ⟨_, rfl, ?_, Link.sends_of_trace rfl⟩
    split <;> trivial
  | writeByte a | readByte a | triplet a | devReset a | cfgWrite a =>
    simp only [exec, execWriteByte, execReadByte, execTriplet, execDevReset, execCfgWrite, hs]
    exact ⟨_, rfl, fun _ => rfl, Link.sends_of_trace rfl⟩
  | reserved0 a | reservedE a | reservedF a =>
    exact ⟨_, illegal_dispatch hs _ a, trivial, Link.sends_of_trace rfl⟩
  | brDeviceReset | brSetReadPointer _ | brConfigWrite _ | brChannelSelect _ | brBusReset | brWriteByte _ | brReadByte
  | brTriplet _ | ptrStatus | ptrData | ptrChannel | ptrConfig | busSearch | busMatchRom => cases hw

theorem rest_keepsCommand (s : State) : s.KeepsCommand s.rest := by
  have hidle (hs : s.ctl.fsm = .idle) (t : State) (ht : t.ctl = s.ctl) : t.CmdOk := by
    unfold State.CmdOk
    rw [ht, hs]
    trivial
  refine ⟨?_, Link.sends_of_trace (congrArg _ (rest_link s))⟩
  unfold State.rest
  split
  · trivial
  · next hs _ => exact hidle hs _ rfl
  · next hs _ => exact hidle hs _ rfl
  · trivial

/-- Every step from a state whose latch is in order answers, and keeps it in order. -/
theorem step_keepsCommand {s : State} (hs : s.CmdOk) : ∃ t, step s = .next t ∧ s.KeepsCommand t := by
  rcases hrun : s.ctl.running with _ | i
  · have htop := running_eq_none_iff.1 hrun
    by_cases hd : s.ctl.fsm = .dispatch
    · rw [step_of_fetched (fetched_dispatch hd)]
      exact exec_dispatch_keepsCommand (hostLevel_decodeHostWord _) hd
    · have hrest : s.ctl.fsm = .idle ∨ s.ctl.fsm = .complete := by simpa [hd] using htop
      exact ⟨s.rest, step_top hrest, rest_keepsCommand s⟩
  · rw [step_running hrun fun f hf => (allowed_of_issuing hs hf).decodes]
    exact exec_running_keepsCommand hs hrun

/-- Settles O49: what a step sends is what its point issues, and that is an allowed frame. -/
theorem everyStepAnswersAndSendsItsCommand : Obligations.EveryStepAnswersAndSendsItsCommand := by
  intro s hs
  obtain ⟨t, hstep, hok, hsends⟩ := step_keepsCommand hs
  exact ⟨t, hstep, hok, fun f hf => allowed_of_issuing hs (hsends f hf)⟩

end Sys2Proof.Machine
end

/-! ## Operations with the answers given (R153 to R160)

The runs of a poll, of a command and of a register read whose answers are known, and the operations made of them. -/

section
namespace Sys2Proof.Machine
open Relation (ReflTransGen)

/-! ### An oracle's next answers -/

/-- A register read of the link (R150). -/
def Link.readRegister (l : Link) (ptr : Byte) : Link := (l.write (selectFrame ptr)).read ptr

/-- The environment is an oracle with these answers next (R10). -/
def Link.WillAnswer (l : Link) (vs : List Byte) : Prop := ∃ rest steps now, l.env = .oracle ⟨vs ++ rest, steps, now⟩

section
variable {l : Link} {v : Byte} {vs : List Byte}

theorem Link.WillAnswer.write (h : l.WillAnswer vs) (f : Frame) : (l.write f).WillAnswer vs := by
  obtain ⟨rest, steps, now, henv⟩ := h
  exact ⟨rest, steps, now, by rw [Link.write_env, henv, Env.receive]⟩

theorem Link.WillAnswer.startPoll (h : l.WillAnswer vs) : l.startPoll.WillAnswer vs := by
  obtain ⟨rest, steps, now, henv⟩ := h
  exact ⟨rest, steps.tail, l.now, by rw [Link.startPoll_env, henv, Env.afterTick]⟩

theorem Link.WillAnswer.answer (h : l.WillAnswer (v :: vs)) : l.env.answer l.trace = v := by
  obtain ⟨rest, steps, now, henv⟩ := h
  rw [henv]
  rfl

theorem Link.WillAnswer.read (h : l.WillAnswer (v :: vs)) (ptr : Byte) : (l.read ptr).WillAnswer vs := by
  obtain ⟨rest, steps, now, henv⟩ := h
  exact ⟨rest, steps, now, by rw [Link.read_env, henv]; rfl⟩

/-! ### The sub-machines -/

/-- A register read takes the next answer (R150). -/
theorem Link.WillAnswer.readRegister (h : l.WillAnswer (v :: vs)) (ptr : Byte) :
    (l.readRegister ptr).rd = v ∧ (l.readRegister ptr).WillAnswer vs ∧
      (l.readRegister ptr).trace = got v :: sent (selectFrame ptr) :: l.trace := by
  have hselected := h.write (selectFrame ptr)
  refine ⟨hselected.answer, hselected.read ptr, ?_⟩
  rw [Link.readRegister, Link.read_trace, hselected.answer]
  rfl

/-- A poll whose condition holds of the next answer takes one sample (R152). -/
theorem Link.WillAnswer.poll (h : l.WillAnswer (v :: vs)) {c : Cond} (hv : c.holds v = true) (T : Nat) :
    ∃ l' τ, Returns (pollPoint c T) (.pT0, l) .ok l' ∧ l'.WillAnswer vs ∧ l'.snap = v ∧
      l'.trace = statusRead v ++ .tick τ :: l.trace := by
  obtain ⟨hsnap, hnext, htrace⟩ := h.startPoll.readRegister statusPtr
  have hsnap : l.startPoll.sample.snap = v := hsnap
  have hstart : Moves (pollPoint c T) (.pT0, l) (.pSample .rrSel, l.startPoll) := rfl
  have htest : Moves (pollPoint c T) (.pTest, l.startPoll.sample) (.pOk, l.startPoll.sample) := by
    simp [Moves, pollPoint, hsnap, hv]
  exact ⟨l.startPoll.sample, l.now, ⟨_, .head hstart ((poll_samples c T _).tail htest), rfl⟩, hnext, hsnap, htrace⟩

/-- A command to a bridge that shows itself idle on the two next answers (R154). -/
theorem Link.WillAnswer.cmd {v0 v1 : Byte} (h : l.WillAnswer (v0 :: v1 :: vs)) (h0 : busy v0 = false)
    (h1 : busy v1 = false) (cmd : Frame) :
    ∃ l' τ0 τ1, Returns (cmdPoint cmd) (.cPre .pT0, l) .ok l' ∧ l'.WillAnswer vs ∧ l'.snap = v1 ∧
      l'.trace = statusRead v1 ++ .tick τ1 :: sent cmd :: statusRead v0 ++ .tick τ0 :: l.trace := by
  obtain ⟨l₁, τ0, hpre, hnext, _, htrace₁⟩ := h.poll (c := .notBusy) (by simp [Cond.holds, h0]) Config.tBusy
  obtain ⟨l₂, τ1, hpost, hnext, hsnap, htrace₂⟩ :=
    (hnext.write cmd).poll (c := .notBusy) (by simp [Cond.holds, h1]) Config.tBusy
  have hpre' : ReflTransGen (Moves (cmdPoint cmd)) (.cPre .pT0, l) (.cIssue, l₁) := hpre.within (fun _ _ => rfl) rfl
  have hissue : Moves (cmdPoint cmd) (.cIssue, l₁) (.cPost .pT0, l₁.write cmd) := rfl
  have hpost' : ReflTransGen (Moves (cmdPoint cmd)) (.cPost .pT0, l₁.write cmd) (.cOk, l₂) :=
    hpost.within (fun _ _ => rfl) rfl
  refine ⟨l₂, τ0, τ1, ⟨_, (hpre'.tail hissue).trans hpost', rfl⟩, hnext, hsnap, ?_⟩
  rw [htrace₂, Link.write_trace, htrace₁]
  rfl

end

/-! ### The operations that are a command -/

/-- `Cmd` returns `OK` at `C_OK` and nowhere else (R154). -/
theorem eq_cOk_of_cmdPoint_ok {cmd : Frame} {p : CmdPt} {l l' : Link} (h : cmdPoint cmd p l = (l', .done .ok)) :
    p = .cOk := by
  have hp : p = .cOk ∧ l' = l := by simpa using cmdPoint_cases h
  exact hp.1

/-- Of a state, the link side is `l` and the operand `a`; all else but control is as in `s`. -/
structure State.Called (s : State) (a : Byte) (l : Link) (u : State) : Prop where
  link : u.link = l
  arg : u.ctl.arg = a
  port : u.port = s.port
  store : s.SameStore u

/-- An operation that is a command, from DISPATCH to what follows a call that returns `OK`. -/
theorem CommandOp.runs_ok {i : Instr} {a : Byte} {o : Op} {stay : CmdPt → Fsm} {cmd : Frame} {ok : State → State}
    (hop : CommandOp i a o stay cmd ok) {s : State} (hs : s.Dispatching i) {l : Link}
    (hcmd : Returns (cmdPoint cmd) (.cPre .pT0, s.link) .ok l) :
    ∃ u, ReflTransGen Next s (ok u) ∧ s.Called a l u := by
  let u := (s.enter a (stay (.cPre .pT0))).loadCmd cmd
  have hentered : Next s u := (step_of_dispatching hs).trans (hop.enters s hs.1)
  have hstep (l : Link) (p : CmdPt) : step ((u.withLink l).goto (stay p)) =
      .next (((u.withLink l).goto (stay p)).callCmd o p stay ok) := by
    rw [step_running (hop.running _ p rfl), hop.calls]
    intro f hf
    rw [hop.issuing] at hf
    exact CmdPt.decodes_of_issuing hop.decodes hf
  refine ⟨(u.withLink l).goto (stay .cOk), .head hentered
    (hcmd.lift (f := fun b => (u.withLink b.2).goto (stay b.1)) (fun b b' hb => ?_) fun p x hp => ?_),
    rfl, rfl, rfl, rfl, rfl, rfl, rfl⟩
  · rw [Next, hstep]
    exact congrArg Host.Outcome.next (callCmd_goto hb)
  · obtain rfl := eq_cOk_of_cmdPoint_ok hp
    cases hp
    exact hstep l .cOk

theorem commandOp_triplet (a : Byte) : CommandOp (.triplet a) a .triplet .triplet
    (tripletFrame (tripletDirByte (directionOf a))) fun t => (t.setResByte t.link.snap).finish .ok where
  decodes := ⟨.brTriplet _, rfl⟩
  timeout := rfl
  enters s hs := by simp only [exec, execTriplet, hs]
  calls _ _ := rfl
  running _ _ h := h ▸ rfl
  issuing _ _ := rfl

theorem commandOp_cfgWrite (a : Byte) : CommandOp (.cfgWrite a) a .cfgWrite .cfgWrite
    (configWriteFrame (configByte (configFlags a))) (·.goto (.cfgReadBack .rrSel)) where
  decodes := ⟨.brConfigWrite _, rfl⟩
  timeout := rfl
  enters s hs := by simp only [exec, execCfgWrite, hs]
  calls _ _ := rfl
  running _ _ h := h ▸ rfl
  issuing _ _ := rfl

/-- Settles O24: one command between two waits of one sample, the second sample being the result. -/
theorem tripletRun : Obligations.TripletRun := by
  intro a s v0 v1 hs hanswer h0 h1
  obtain ⟨l, τ0, τ1, hcmd, _, hsnap, htrace⟩ :=
    Link.WillAnswer.cmd (l := s.link) (vs := []) hanswer h0 h1 (tripletFrame (tripletDirByte (directionOf a)))
  obtain ⟨u, hrun, hlink, _, hport, hstore⟩ := (commandOp_triplet a).runs_ok hs hcmd
  refine ⟨_, τ0, τ1, reaches_retire_of_steps hrun rfl, rfl, ?_, hstore, ?_⟩
  · rw [← hsnap, ← hlink, ← hport]
    rfl
  · exact (congrArg Link.trace hlink).trans htrace

/-! ### `CFG_WRITE` (R160) -/

/-- The comparison is of the low nibbles of the byte read and of the byte written (R108). -/
theorem configVerified_eq (a r : Byte) : configVerified (configFlags a) r =
    decide (r.extractLsb' 0 4 = (cfgEncode (a.getLsbD 0) (a.getLsbD 2) (a.getLsbD 3)).extractLsb' 0 4) := by
  rw [← configByte_configFlags, configByte_low]
  rfl

/-- The result of `CFG_WRITE` with the operand `a` when it reads back `r` (R108, R160). -/
def cfgVerdict (a r : Byte) : ResCode :=
  if r.extractLsb' 0 4 = (cfgEncode (a.getLsbD 0) (a.getLsbD 2) (a.getLsbD 3)).extractLsb' 0 4 then .ok else .mismatch

/-- At `CW_CMP` the operation ends with the verdict on the byte read back (R160). -/
theorem execCfgWrite_compare (a : Byte) {s : State} (hs : s.ctl.fsm = .cfgCompare) :
    exec (.cfgWrite a) s = .next ((s.setResByte s.link.rd).finish (cfgVerdict a s.link.rd)) := by
  simp only [exec, execCfgWrite, hs, configVerified_eq, decide_eq_true_eq, cfgVerdict]
  split <;> rfl

/-- After the command: the read-back of the configuration register and the comparison (R160). -/
theorem cfgWrite_ends (s : State) : ReflTransGen Next (s.goto (.cfgReadBack .rrSel))
    (((s.withLink (s.link.readRegister configPtr)).setResByte (s.link.readRegister configPtr).rd).finish
      (cfgVerdict s.ctl.arg (s.link.readRegister configPtr).rd)) := by
  let t₁ := (s.withLink (s.link.write (selectFrame configPtr))).goto (.cfgReadBack .rrRd)
  let t₂ := (s.withLink (s.link.readRegister configPtr)).goto .cfgCompare
  have hselect : Next (s.goto (.cfgReadBack .rrSel)) t₁ :=
    (step_running (i := .cfgWrite s.ctl.arg) rfl fun f hf => by cases hf; exact selectFrame_decodes _).trans rfl
  have hread : Next t₁ t₂ := (step_running (i := .cfgWrite s.ctl.arg) rfl fun _ hf => by cases hf).trans rfl
  have hcompare : step t₂ = exec (.cfgWrite s.ctl.arg) t₂ := step_running rfl fun _ hf => by cases hf
  exact .head hselect (.head hread (.single (hcompare.trans (execCfgWrite_compare _ rfl))))

/-- Settles O25: one command, the read-back, and the comparison. -/
theorem cfgWriteResult : Obligations.CfgWriteResult := by
  refine ⟨fun a s hs => execCfgWrite_compare a hs, ?_⟩
  intro a s v0 v1 r hs hanswer h0 h1 b
  have hb : configByte (configFlags a) = b := configByte_configFlags a
  obtain ⟨l, τ0, τ1, hcmd, hnext, _, htrace⟩ :=
    Link.WillAnswer.cmd (l := s.link) (vs := [r]) hanswer h0 h1 (configWriteFrame (configByte (configFlags a)))
  obtain ⟨u, hsent, rfl, rfl, hport, hstore⟩ := (commandOp_cfgWrite a).runs_ok hs hcmd
  obtain ⟨hrd, _, htrace'⟩ := hnext.readRegister configPtr
  refine ⟨_, τ0, τ1, reaches_retire_of_steps (hsent.trans (cfgWrite_ends u)) rfl, rfl, hstore, ?_, ?_⟩
  · rw [← hrd, ← hport]
    rfl
  · rw [hb] at htrace
    exact htrace'.trans (congrArg (got r :: sent (selectFrame configPtr) :: ·) htrace)

end Sys2Proof.Machine
end

/-! ## `OW_RESET` and the points of the bounded poll (R140, R152, R153) -/

section
namespace Sys2Proof.Machine
open Relation (ReflTransGen)

/-! ### `OW_RESET`, one program point at a time -/

section
variable {s : State} {p q : ResetPt} {l : Link} (a : Byte)

theorem execOwReset_goto (hs : s.ctl.fsm = .owReset p) (h : resetPoint p s.link = (l, .goto q)) :
    exec (.owReset a) s = .next ((s.withLink l).goto (.owReset q)) := by
  simp only [exec, execOwReset, hs, h]

theorem execOwReset_done {seen : Bool} (hs : s.ctl.fsm = .owReset p) (h : resetPoint p s.link = (l, .done seen)) :
    exec (.owReset a) s = .next ((s.withLink l).finish (if seen then .ok else .absent)) := by
  cases seen <;> simp only [exec, execOwReset, hs, h] <;> rfl

end

theorem step_owReset (s : State) (p : ResetPt) :
    step (s.goto (.owReset p)) = exec (.owReset s.ctl.arg) (s.goto (.owReset p)) :=
  step_running (s := s.goto (.owReset p)) rfl fun _ hf => ResetPt.decodes_of_issuing (p := p) hf

/-! ### Runs of `OW_RESET` -/

/-- `reset()` is the bus-reset command and the two polls; when both succeed it is true (R140). -/
theorem reset_returns_of_polls {l l₁ l₂ : Link}
    (hpresence : Returns (pollPoint .presence Config.tReset) (.pT0, l.write busResetFrame) .ok l₁)
    (hbusy : Returns busyPoint (.pT0, l₁) .ok l₂) : Returns resetPoint (.brIssue, l) true l₂ := by
  have hissue : Moves resetPoint (.brIssue, l) (.brPpd .pT0, l.write busResetFrame) := rfl
  have hpresence' : ReflTransGen (Moves resetPoint) (.brPpd .pT0, l.write busResetFrame) (.brBusy .pT0, l₁) :=
    hpresence.within (fun _ _ => rfl) rfl
  have hbusy' : ReflTransGen (Moves resetPoint) (.brBusy .pT0, l₁) (.brTrue, l₂) := hbusy.within (fun _ _ => rfl) rfl
  exact ⟨_, .head hissue (hpresence'.trans hbusy'), rfl⟩

/-- `reset()` on a bridge that shows presence on its next answer and busy 0 on the one after it (R140). -/
theorem Link.WillAnswer.reset {l : Link} {v0 v1 : Byte} {vs : List Byte} (h : l.WillAnswer (v0 :: v1 :: vs))
    (h0 : ppd v0 = true) (h1 : busy v1 = false) :
    ∃ l' τ0 τ1, Returns resetPoint (.brIssue, l) true l' ∧ l'.WillAnswer vs ∧
      l'.trace = statusRead v1 ++ .tick τ1 :: statusRead v0 ++ .tick τ0 :: sent busResetFrame :: l.trace := by
  obtain ⟨l₁, τ0, hpresence, hnext, _, htrace₁⟩ := (h.write busResetFrame).poll (c := .presence) h0 Config.tReset
  obtain ⟨l₂, τ1, hbusy, hnext, _, htrace₂⟩ := hnext.poll (c := .notBusy) (by simp [Cond.holds, h1]) Config.tBusy
  refine ⟨l₂, τ0, τ1, reset_returns_of_polls hpresence hbusy, hnext, ?_⟩
  rw [htrace₂, htrace₁]
  rfl

/-- `OW_RESET` from DISPATCH to COMPLETE, given the run of `reset()` (R140). -/
theorem owReset_runs {a : Byte} {s : State} (hs : s.Dispatching (.owReset a)) {seen : Bool} {l : Link}
    (hreset : Returns resetPoint (.brIssue, s.link) seen l) :
    ReflTransGen Next s (((s.enter a (.owReset .brIssue)).withLink l).finish (if seen then .ok else .absent)) := by
  let u := s.enter a (.owReset .brIssue)
  have hentered : Next s u := by
    rw [Next, step_of_dispatching hs]
    simp only [exec, execOwReset, hs.1, u]
  refine .head hentered
    (hreset.lift (f := fun b => (u.withLink b.2).goto (.owReset b.1)) (fun b b' hb => ?_) fun p x hp => ?_)
  · exact (step_owReset _ _).trans (execOwReset_goto _ rfl hb)
  · exact (step_owReset _ _).trans (execOwReset_done _ rfl hp)

/-- Settles O16: the last points of `reset()` and of its polls, and a run of one sample a poll. -/
theorem owResetResult : Obligations.OwResetResult := by
  refine ⟨fun a s hs => execOwReset_done a hs rfl, fun a s hs => execOwReset_done a hs rfl, ?_, ?_⟩
  · rintro a s (hs | hs) <;> exact execOwReset_goto a hs rfl
  · intro a s v0 v1 hs hanswer h0 h1
    obtain ⟨l, τ0, τ1, hreset, _, htrace⟩ := Link.WillAnswer.reset (l := s.link) (vs := []) hanswer h0 h1
    exact ⟨_, τ0, τ1, reaches_retire_of_steps (owReset_runs hs hreset) rfl, rfl, rfl, ⟨rfl, rfl, rfl, rfl⟩, htrace⟩

/-! ### The points of a poll (R152) -/

/-- In this state the instruction polls for `c` within `T` ticks, control being at `stay` of the poll's points: it goes on as
the poll does, and the poll's results lead to `ok` and `timeout`. -/
structure PollsIn (s : State) (i : Instr) (stay : PollPt → Fsm) (c : Cond) (T : Nat) (ok timeout : State) : Prop where
  goes : ∀ {p q l}, s.ctl.fsm = stay p → pollPoint c T p s.link = (l, .goto q) →
    exec i s = .next ((s.withLink l).goto (stay q))
  ok : s.ctl.fsm = stay .pOk → exec i s = .next ok
  timeout : s.ctl.fsm = stay .pTimeout → exec i s = .next timeout

/-- The test of a poll (R152). -/
theorem PollsIn.test {s : State} {i : Instr} {stay : PollPt → Fsm} {c : Cond} {T : Nat} {ok timeout : State}
    (h : PollsIn s i stay c T ok timeout) (hs : s.ctl.fsm = stay .pTest) :
    exec i s = .next (s.goto (if c.holds s.link.snap = true then stay .pOk else stay .pTime)) := by
  rw [h.goes hs rfl, apply_ite stay]
  rfl

/-- The time test of a poll: the budget is used up, or another sample is taken (R152). -/
theorem PollsIn.time {s : State} {i : Instr} {stay : PollPt → Fsm} {c : Cond} {T : Nat} {ok timeout : State}
    (h : PollsIn s i stay c T ok timeout) (hs : s.ctl.fsm = stay .pTime) :
    exec i s = .next ((s.withLink s.link.tick).goto
      (if s.link.now - s.link.t0 ≥ T then stay .pTimeout else stay (.pSample .rrSel))) := by
  rw [h.goes hs rfl, apply_ite stay]
  simp only [expired, decide_eq_true_eq]

theorem busyWait_pollsIn (a : Byte) (s : State) : PollsIn s (.busyWait a) .busyWait .notBusy (timeoutOf a)
    ((s.setResByte s.link.snap).finish .ok) ((s.setResByte s.link.snap).finish .timeout) where
  goes hs h := by simp only [exec, execBusyWait, hs, callPoll_goto h]
  ok hs := by simp only [exec, execBusyWait, hs]; rfl
  timeout hs := by simp only [exec, execBusyWait, hs]; rfl

theorem owReset_presence_pollsIn (a : Byte) (s : State) :
    PollsIn s (.owReset a) (fun p => .owReset (.brPpd p)) .presence Config.tReset
      (s.goto (.owReset (.brBusy .pT0))) (s.goto (.owReset .brFalse)) where
  goes hs h := execOwReset_goto a hs (by simp only [resetPoint, h, Flow.within_goto])
  ok hs := execOwReset_goto a hs rfl
  timeout hs := execOwReset_goto a hs rfl

theorem owReset_busy_pollsIn (a : Byte) (s : State) :
    PollsIn s (.owReset a) (fun p => .owReset (.brBusy p)) .notBusy Config.tBusy
      (s.goto (.owReset .brTrue)) (s.goto (.owReset .brFalse)) where
  goes hs h := execOwReset_goto a hs (by simp only [resetPoint, busyPoint, h, Flow.within_goto])
  ok hs := execOwReset_goto a hs rfl
  timeout hs := execOwReset_goto a hs rfl

/-- Settles O18: the same seven points for each of the three polls. -/
theorem pollPoints : Obligations.PollPoints := by
  intro a s on polls waited
  have hpolls {i stay c T ok timeout} (h : PollsIn s i stay c T ok timeout) : polls i stay c.holds T ok timeout :=
    ⟨fun hs => ⟨h.goes hs rfl, rfl⟩, fun hs => h.goes hs rfl, fun hs => ⟨h.goes hs rfl, rfl⟩, h.test, h.time, h.ok,
      h.timeout⟩
  exact ⟨hpolls (busyWait_pollsIn a s), hpolls (owReset_presence_pollsIn a s), hpolls (owReset_busy_pollsIn a s)⟩

end Sys2Proof.Machine
end

/-! ## The operations of the bridge command layer (R150 to R159)

What `BUSY_WAIT`, `READ_REG` and the operations that are a command do at their last points, and their runs on a bridge that
shows itself idle. -/

section
namespace Sys2Proof.Machine
open Relation (ReflTransGen)

/-! ### An operation that polls (R152) -/

/-- `Poll` returns `OK` at `P_OK` and nowhere else (R152). -/
theorem eq_pOk_of_pollPoint_ok {c : Cond} {T : Nat} {p : PollPt} {l l' : Link}
    (h : pollPoint c T p l = (l', .done .ok)) : p = .pOk ∧ l' = l := by
  simpa using pollPoint_cases h

/-- The poll of an operation, from its first point to what follows when it returns `OK`. -/
theorem PollsIn.runs_ok {i : Instr} {stay : PollPt → Fsm} {c : Cond} {T : Nat} {u : State} {ok timeout : State → State}
    (hpolls : ∀ s, PollsIn s i stay c T (ok s) (timeout s))
    (hrunning : ∀ p, (u.goto (stay p)).ctl.running = some i) (hissuing : ∀ p, (u.goto (stay p)).ctl.issuing = p.issuing)
    {l : Link} (hpoll : Returns (pollPoint c T) (.pT0, u.link) .ok l) :
    ReflTransGen Next (u.goto (stay .pT0)) (ok ((u.withLink l).goto (stay .pOk))) := by
  have hstep (l : Link) (p : PollPt) : step ((u.withLink l).goto (stay p)) = exec i ((u.withLink l).goto (stay p)) :=
    step_running (hrunning p) fun _ hf => PollPt.decodes_of_issuing ((hissuing p).symm.trans hf)
  refine hpoll.lift (f := fun b => (u.withLink b.2).goto (stay b.1)) (fun b b' hb => ?_) fun p x hp => ?_
  · exact (hstep b.2 b.1).trans ((hpolls _).goes rfl hb)
  · obtain ⟨rfl, rfl⟩ := eq_pOk_of_pollPoint_ok hp
    exact (hstep l .pOk).trans ((hpolls _).ok rfl)

/-! ### `BUSY_WAIT` (R153) -/

theorem execBusyWait_dispatch (a : Byte) {s : State} (hs : s.ctl.fsm = .dispatch) :
    exec (.busyWait a) s = .next (s.enter a (.busyWait .pT0)) := by
  simp only [exec, execBusyWait, hs]

/-- `BUSY_WAIT` from DISPATCH to COMPLETE, given a poll that succeeds (R153). -/
theorem busyWait_runs_ok {a : Byte} {s : State} (hs : s.Dispatching (.busyWait a)) {l : Link}
    (hpoll : Returns (pollPoint .notBusy (timeoutOf a)) (.pT0, s.link) .ok l) :
    ReflTransGen Next s ((((s.enter a (.busyWait .pT0)).withLink l).setResByte l.snap).finish .ok) := by
  let u := s.enter a (.busyWait .pT0)
  have hentered : Next s u := (step_of_dispatching hs).trans (execBusyWait_dispatch a hs.1)
  exact .head hentered (PollsIn.runs_ok (u := u) (busyWait_pollsIn a) (fun _ => rfl) (fun _ => rfl) hpoll)

/-- Settles O17: the last points of the poll, and a run of one sample. -/
theorem busyWaitResult : Obligations.BusyWaitResult := by
  refine ⟨fun a s => (busyWait_pollsIn a s).ok, fun a s => (busyWait_pollsIn a s).timeout, ?_⟩
  intro a s v hs hanswer hidle
  obtain ⟨l, τ, hpoll, _, rfl, htrace⟩ :=
    Link.WillAnswer.poll (l := s.link) (vs := []) hanswer (c := .notBusy) (by simp [Cond.holds, hidle]) (timeoutOf a)
  exact ⟨_, τ, reaches_retire_of_steps (busyWait_runs_ok hs hpoll) rfl, rfl, rfl, ⟨rfl, rfl, rfl, rfl⟩, htrace⟩

/-! ### A register read whose byte is the result (R150) -/

/-- The byte read is the byte result, and the operation ends `OK` (R155, R157). -/
def State.finishRead (s : State) : State := (s.setResByte s.link.rd).finish .ok

/-- A `ReadRegister` call of an operation, from its first point to what follows it. -/
theorem callRead_runs {ptr : Byte} {stay : ReadPt → Fsm} {ok : State → State} {s : State}
    (hstep : ∀ l p, step ((s.withLink l).goto (stay p)) =
      .next (((s.withLink l).goto (stay p)).callRead ptr p stay ok)) :
    ReflTransGen Next (s.goto (stay .rrSel)) (ok ((s.withLink (s.link.readRegister ptr)).goto (stay .rrRd))) :=
  .head (hstep s.link .rrSel) (.single (hstep (s.link.write (selectFrame ptr)) .rrRd))

theorem ReadPt.decodes_of_issuing {ptr : Byte} {p : ReadPt} {f : Frame} (h : p.issuing ptr = some f) : Decodes f := by
  cases p <;> cases h
  exact selectFrame_decodes ptr

theorem step_readReg (s : State) (p : ReadPt) :
    step (s.goto (.readReg p)) = .next ((s.goto (.readReg p)).callRead s.ctl.arg p .readReg State.finishRead) :=
  step_running (s := s.goto (.readReg p)) rfl fun _ hf => ReadPt.decodes_of_issuing hf

theorem step_readByteData (s : State) (p : ReadPt) :
    step (s.goto (.readByteData p)) =
      .next ((s.goto (.readByteData p)).callRead dataPtr p .readByteData State.finishRead) :=
  step_running (s := s.goto (.readByteData p)) rfl fun _ hf => ReadPt.decodes_of_issuing hf

/-! ### `READ_REG` (R155) -/

theorem execReadReg_dispatch (a : Byte) {s : State} (hs : s.ctl.fsm = .dispatch) :
    exec (.readReg a) s = .next (s.enter a (if a = statusPtr then .readReg .rrSel else .readRegWait .pT0)) := by
  simp only [exec, execReadReg, hs]

theorem execReadReg_read (a : Byte) {s : State} (hs : s.ctl.fsm = .readReg .rrRd) :
    exec (.readReg a) s = .next (s.withLink (s.link.read a)).finishRead := by
  simp only [exec, execReadReg, hs]
  rfl

theorem readReg_pollsIn (a : Byte) (s : State) : PollsIn s (.readReg a) .readRegWait .notBusy Config.tBusy
    (s.goto (.readReg .rrSel)) (s.finish .timeout) where
  goes hs h := by simp only [exec, execReadReg, hs, callPoll_goto h]
  ok hs := by simp only [exec, execReadReg, hs]; rfl
  timeout hs := by simp only [exec, execReadReg, hs]; rfl

/-- `READ_REG` of another register than the status register, from DISPATCH to its read, given a pre-wait that succeeds. -/
theorem readReg_waits {a : Byte} (ha : a ≠ statusPtr) {s : State} (hs : s.Dispatching (.readReg a)) {l : Link}
    (hpoll : Returns busyPoint (.pT0, s.link) .ok l) :
    ReflTransGen Next s ((s.withLink l).enter a (.readReg .rrSel)) := by
  let u := s.enter a (.readRegWait .pT0)
  have hentered : Next s u := by
    rw [Next, step_of_dispatching hs, execReadReg_dispatch a hs.1, if_neg ha]
  exact .head hentered (PollsIn.runs_ok (u := u) (readReg_pollsIn a) (fun _ => rfl) (fun _ => rfl) hpoll)

/-- `READ_REG` from its read to COMPLETE (R150). -/
theorem readReg_reads (s : State) (a : Byte) : ReflTransGen Next (s.enter a (.readReg .rrSel))
    ((s.enter a (.readReg .rrRd)).withLink (s.link.readRegister a)).finishRead :=
  callRead_runs (s := s.enter a .dispatch) fun _ p => step_readReg _ p

/-- Settles O19: the read as the last point, the pre-wait's timeout, and the runs with the pre-wait and without it. -/
theorem readRegResult : Obligations.ReadRegResult := by
  refine ⟨fun a s hs => execReadReg_read a hs, fun a s => (readReg_pollsIn a s).timeout, ?_, ?_⟩
  · intro a s v0 v ha hs hanswer hidle
    obtain ⟨l, τ, hpoll, hnext, _, htrace⟩ := Link.WillAnswer.poll (l := s.link) (vs := [v]) hanswer
      (c := .notBusy) (by simp [Cond.holds, hidle]) Config.tBusy
    obtain ⟨rfl, _, htrace'⟩ := hnext.readRegister a
    have hrun := (readReg_waits ha hs hpoll).trans (readReg_reads (s.withLink l) a)
    refine ⟨_, τ, reaches_retire_of_steps hrun rfl, rfl, rfl, ⟨rfl, rfl, rfl, rfl⟩, ?_⟩
    rw [htrace] at htrace'
    exact htrace'
  · intro s v hs hanswer
    obtain ⟨rfl, _, htrace⟩ := Link.WillAnswer.readRegister (l := s.link) (vs := []) hanswer statusPtr
    have hentered : Next s (s.enter statusPtr (.readReg .rrSel)) :=
      (step_of_dispatching hs).trans (execReadReg_dispatch statusPtr hs.1)
    exact ⟨_, reaches_retire_of_steps (.head hentered (readReg_reads s statusPtr)) rfl, rfl, rfl, ⟨rfl, rfl, rfl, rfl⟩,
      htrace⟩

/-! ### The operations that are a command (R154, R156 to R159) -/

theorem commandOp_writeByte (a : Byte) :
    CommandOp (.writeByte a) a .writeByte .writeByte (writeByteFrame a) (·.finish .ok) where
  decodes := ⟨.brWriteByte a, rfl⟩
  timeout := rfl
  enters s hs := by simp only [exec, execWriteByte, hs]
  calls _ _ := rfl
  running _ _ h := h ▸ rfl
  issuing _ _ := rfl

theorem commandOp_readByte (a : Byte) :
    CommandOp (.readByte a) a .readByte .readByte readByteFrame (·.goto (.readByteData .rrSel)) where
  decodes := ⟨.brReadByte, rfl⟩
  timeout := rfl
  enters s hs := by simp only [exec, execReadByte, hs]
  calls _ _ := rfl
  running _ _ h := h ▸ rfl
  issuing _ _ := rfl

theorem commandOp_devReset (a : Byte) :
    CommandOp (.devReset a) a .devReset .devReset deviceResetFrame (·.finish .ok) where
  decodes := ⟨.brDeviceReset, rfl⟩
  timeout := rfl
  enters s hs := by simp only [exec, execDevReset, hs]
  calls _ _ := rfl
  running _ _ h := h ▸ rfl
  issuing _ _ := rfl

/-! ### A command, one program point at a time (R154) -/

section
variable {i : Instr} {a : Byte} {o : Op} {stay : CmdPt → Fsm} {cmd : Frame} {ok : State → State}

/-- At a point of its command the operation does what the `Cmd` call does. -/
theorem CommandOp.exec_at (hop : CommandOp i a o stay cmd ok) {s : State} {p : CmdPt} (hs : s.ctl.fsm = stay p) :
    exec i s = .next (s.callCmd o p stay ok) := by
  have hself : s.goto (stay p) = s := by rw [← hs]; rfl
  simpa only [hself] using hop.calls s p

/-- A wait that times out leads to `C_FAIL` (R154). -/
theorem CommandOp.wait_timeout (hop : CommandOp i a o stay cmd ok) {s : State}
    (hs : s.ctl.fsm = stay (.cPre .pTimeout) ∨ s.ctl.fsm = stay (.cPost .pTimeout)) :
    exec i s = .next (s.goto (stay .cFail)) := by
  obtain hs | hs := hs
  · exact hop.exec_at hs
  · exact hop.exec_at hs

/-- `C_FAIL` ends the operation with `TIMEOUT` and writes no other result (R241, R245). -/
theorem CommandOp.exec_cFail (hop : CommandOp i a o stay cmd ok) {s : State} (hs : s.ctl.fsm = stay .cFail) :
    exec i s = .next (s.finish .timeout) := by
  rw [← hop.timeout]
  exact hop.exec_at hs

end

/-- Settles O21: a failed `Cmd` call is the same in the five operations that are a command. -/
theorem commandTimeoutReported : Obligations.CommandTimeoutReported := by
  intro a s ends
  have hends {i o stay cmd ok} (hop : CommandOp i a o stay cmd ok) : ends i stay := ⟨hop.wait_timeout, hop.exec_cFail⟩
  exact ⟨hends (commandOp_writeByte a), hends (commandOp_readByte a), hends (commandOp_triplet a),
    hends (commandOp_devReset a), hends (commandOp_cfgWrite a)⟩

/-- At the read of the data register `READ_BYTE` ends with the byte read (R157). -/
theorem execReadByte_read (a : Byte) {s : State} (hs : s.ctl.fsm = .readByteData .rrRd) :
    exec (.readByte a) s = .next (s.withLink (s.link.read dataPtr)).finishRead := by
  simp only [exec, execReadByte, hs]
  rfl

/-- Settles O20: what follows the command, at `C_OK` of the three operations that end there and at the read of the data
register of `READ_BYTE`. -/
theorem commandOperationsComplete : Obligations.CommandOperationsComplete :=
  ⟨fun a _ => (commandOp_writeByte a).exec_at, fun a _ => (commandOp_triplet a).exec_at,
    fun a _ => (commandOp_devReset a).exec_at, fun a _ => execReadByte_read a⟩

/-! ### Runs of a command on an idle bridge -/

/-- Settles O22: the same run for both operations, one command between two waits of one sample. -/
theorem writeByteAndDevResetRun : Obligations.WriteByteAndDevResetRun := by
  intro i f s v0 v1 hi hs hanswer h0 h1
  obtain ⟨a, o, stay, hop⟩ : ∃ a o stay, CommandOp i a o stay f (·.finish .ok) := by
    obtain ⟨a, rfl, rfl⟩ | ⟨a, rfl, rfl⟩ := hi
    · exact ⟨a, _, _, commandOp_writeByte a⟩
    · exact ⟨a, _, _, commandOp_devReset a⟩
  obtain ⟨l, τ0, τ1, hcmd, _, _, htrace⟩ := Link.WillAnswer.cmd (l := s.link) (vs := []) hanswer h0 h1 f
  obtain ⟨u, hrun, rfl, _, hport, hstore⟩ := hop.runs_ok hs hcmd
  exact ⟨_, τ0, τ1, reaches_retire_of_steps hrun rfl, rfl, congrArg ({ · with resCode := .ok }) hport, hstore, htrace⟩

/-- Settles O23: one command between two waits of one sample, then the read of the data register. -/
theorem readByteRun : Obligations.ReadByteRun := by
  intro a s v0 v1 v hs hanswer h0 h1
  obtain ⟨l, τ0, τ1, hcmd, hnext, _, htrace⟩ :=
    Link.WillAnswer.cmd (l := s.link) (vs := [v]) hanswer h0 h1 readByteFrame
  obtain ⟨u, hsent, rfl, _, hport, hstore⟩ := (commandOp_readByte a).runs_ok hs hcmd
  obtain ⟨rfl, _, htrace'⟩ := hnext.readRegister dataPtr
  have hread := callRead_runs (s := u) fun _ p => step_readByteData _ p
  rw [htrace] at htrace'
  refine ⟨_, τ0, τ1, reaches_retire_of_steps (hsent.trans hread) rfl, rfl, ?_, hstore, htrace'⟩
  rw [← hport]
  rfl

end Sys2Proof.Machine
end

/-! ## The search step point by point, and the operations that run it (R180 to R197) -/

section
namespace Sys2Proof.Machine

/-! ### The tests of the search step -/

/-- The fresh-pass test (R183). -/
theorem SearchState.fresh_iff {x : SearchState} :
    x.fresh = true ↔ x.lastDiscrepancy = 0 ∧ x.lastDeviceFlag = false := by
  simp [SearchState.fresh]

/-- The no-device test reads the two read bits of the snapshot (R105, R189). -/
theorem noDevice_iff {v : Byte} : noDevice v = true ↔ v.getLsbD 5 = true ∧ v.getLsbD 6 = true :=
  Bool.and_eq_true_iff

/-- The discrepancy test reads the two read bits and the direction of the snapshot (R105, R190). -/
theorem zeroBranch_iff {v : Byte} :
    zeroBranch v = true ↔ v.getLsbD 5 = false ∧ v.getLsbD 6 = false ∧ v.getLsbD 7 = false := by
  simp [zeroBranch, sbr, tsb, dir, and_assoc]

/-- The all-zero test is the test of the integer (R194). -/
theorem SearchState.allZero_iff {x : SearchState} : x.allZero = true ↔ romToId x.rom = 0 :=
  ⟨romToId_eq_zero_of_allZero, allZero_of_romToId_eq_zero⟩

/-! ### The points of the walk -/

/-- Settles O30: the two outcomes of the fresh-pass test. -/
theorem freshPassClearsTheRegistry : Obligations.FreshPassClearsTheRegistry := by
  intro s
  rw [← SearchState.fresh_iff]
  refine ⟨fun h => ?_, fun h => ?_⟩
  · exact congrArg (·, _) (beginStep_of_fresh h)
  · exact congrArg (·, _) (beginStep_of_not_fresh (Bool.eq_false_of_not_eq_true h))

/-- Settles O32: the point moves on by `noDevice`. -/
theorem noDeviceAborts : Obligations.NoDeviceAborts := by
  intro s
  simp only [← noDevice_iff]
  exact ⟨rfl, rfl⟩

/-- A discrepancy written as 0, in the family byte or past it (R190). -/
theorem trackZero_of_zeroBranch {s : State} (h : zeroBranch s.link.snap = true) : s.trackZero =
    { s with
      walk := { s.walk with lastZero := s.walk.n }
      search := if s.walk.n ≤ 8 then { s.search with lastFamilyDiscrepancy := s.walk.n } else s.search } := if_pos h

/-- Settles O33: the outcomes of the discrepancy test, and of the family-byte test where it holds. -/
theorem discrepancyTracking : Obligations.DiscrepancyTracking := by
  intro s zero
  have hzero : zeroBranch s.link.snap = true ↔ zero := zeroBranch_iff
  refine ⟨fun ⟨h, hfamily⟩ => ?_, fun ⟨h, hpast⟩ => ?_, fun h => ?_⟩
  · have hle : s.walk.n ≤ 8 := hfamily
    rw [searchPoint, trackZero_of_zeroBranch (hzero.2 h), if_pos hle]
  · have hle : ¬ s.walk.n ≤ 8 := hpast.not_ge
    rw [searchPoint, trackZero_of_zeroBranch (hzero.2 h), if_neg hle]
  · rw [searchPoint, State.trackZero, if_neg (mt hzero.1 h)]

/-- Settles O34: `romStore` at the byte and mask of the walk's position is the write of one bit of the integer. -/
theorem storeWritesTheReportedBit : Obligations.StoreWritesTheReportedBit := by
  intro s ⟨h1, h64, hidx, hmask⟩
  refine ⟨_, rfl, fun m hm1 hm64 => ?_⟩
  have hpos : m - 1 = s.walk.n.toNat - 1 ↔ m = s.walk.n.toNat := by omega
  rw [hidx, hmask, romToId_romStore_getLsbD s.search.rom h1 h64 _ (by omega)]
  simp only [hpos]
  rfl

/-- An advance keeps the preferred direction of the position before. -/
@[simp] theorem Walk.advance_d (w : Walk) : w.advance.d = w.d := by
  unfold Walk.advance
  dsimp only
  split <;> rfl

/-- The walk temporaries after `k` positions of a walk (R192). -/
structure Walk.Passed (w₀ w : Walk) (k : Nat) : Prop where
  n : w.n.toNat = k + 1
  byteIdx : w.byteIdx.toNat = k / 8
  mask : w.mask = maskOf (k + 1)
  lastZero : w.lastZero = 0
  d : w.d = w₀.d

theorem Walk.init_passed (w : Walk) : w.Passed w.init 0 := ⟨rfl, rfl, rfl, rfl, rfl⟩

section
variable {w₀ w : Walk} {k : Nat}

/-- Up to position 64 the temporaries agree with one another (R26). -/
theorem Walk.Passed.coherent (h : w₀.Passed w k) (hk : k < 64) : w.Coherent := by
  obtain ⟨hn, hidx, hmask, _, _⟩ := h
  exact ⟨by omega, by omega, by rw [hidx, hn, byteIdxOf, Nat.add_sub_cancel], by rw [hmask, hn]⟩

theorem Walk.Passed.advance (h : w₀.Passed w k) (hk : k < 64) : w₀.Passed w.advance (k + 1) := by
  obtain ⟨hn, hzero, hidx, hmask⟩ := Walk.advance_of_coherent (h.coherent hk)
  rw [h.n] at hn hidx hmask
  exact ⟨hn, hidx, hmask, hzero.trans h.lastZero, w.advance_d.trans h.d⟩

/-- The walk goes on while a position is left. -/
theorem Walk.Passed.more_iff (h : w₀.Passed w k) : w.more = true ↔ k < 64 := by
  rw [Walk.more, decide_eq_true_iff, BitVec.lt_def, h.byteIdx]
  exact Nat.div_lt_iff_lt_mul (by decide)

end

theorem Walk.iterate_advance_passed (w : Walk) {k : Nat} (hk : k ≤ 64) : w.Passed (Walk.advance^[k] w.init) k := by
  induction k with
  | zero => exact w.init_passed
  | succ k ih =>
    rw [Function.iterate_succ_apply']
    exact (ih (by omega)).advance hk

/-- Settles O35: by induction on the number of advances. -/
theorem advanceWalksAllPositions : Obligations.AdvanceWalksAllPositions := by
  refine ⟨fun _ => rfl, fun _ => rfl, fun w k hk => ?_⟩
  have h := w.iterate_advance_passed hk
  exact ⟨h.n, h.byteIdx, h.mask, h.lastZero, h.d, h.more_iff⟩

/-- Settles O36: the two outcomes of the test of `last_zero`. -/
theorem endOfWalk : Obligations.EndOfWalk := by
  intro s
  refine ⟨fun h => ?_, fun h => ?_⟩
  · simp [searchPoint, State.endWalk, h]
  · have hzero : (s.walk.lastZero == 0) = false := beq_false_of_ne h
    simp only [searchPoint, State.endWalk, hzero, Bool.false_or]

/-- Settles O37: the two outcomes of the all-zero test. -/
theorem allZeroIdentifierFails : Obligations.AllZeroIdentifierFails := by
  intro s
  rw [ne_eq, ← SearchState.allZero_iff]
  refine ⟨fun h => ?_, fun h => ?_⟩
  · rw [searchPoint, if_pos h]
  · rw [searchPoint, if_neg h]

/-! ### The operations that run the step -/

/-- At a point `stay p` the instruction does what the search step does at `p`, and goes on as `ret` says. -/
def SearchOp (i : Instr) (stay : SearchPt → Fsm) (ret : State → SearchResult → State) : Prop :=
  ∀ ⦃s : State⦄ ⦃p : SearchPt⦄, s.ctl.fsm = stay p → exec i s = .next (resume stay ret (searchPoint p s))

section
variable {i : Instr} {stay : SearchPt → Fsm} {ret : State → SearchResult → State} {s t : State} {p : SearchPt}

theorem SearchOp.moves (hop : SearchOp i stay ret) {q : SearchPt} (h : searchPoint p s = (t, .goto q))
    (hs : s.ctl.fsm = stay p) : exec i s = .next (t.goto (stay q)) := by
  rw [hop hs, h, resume]

theorem SearchOp.returns (hop : SearchOp i stay ret) {r : SearchResult} (h : searchPoint p s = (t, .done r))
    (hs : s.ctl.fsm = stay p) : exec i s = .next (ret t r) := by
  rw [hop hs, h, resume]

/-- `S_REG` appends the buffer's identifier (R195). -/
theorem SearchOp.exec_sReg (hop : SearchOp i stay ret) (hs : s.ctl.fsm = stay .sReg) :
    exec i s = .next (s.register.goto (stay .sFound)) := hop hs

/-- `S_FOUND` reports the buffer's identifier (R180, R195). -/
theorem SearchOp.exec_sFound (hop : SearchOp i stay State.reportSearch) (hs : s.ctl.fsm = stay .sFound) :
    exec i s = .next ((s.setResId (romToId s.search.rom)).finish .found) := hop hs

/-- `S_FAIL` empties the Search State and reports exhaustion (R196). -/
theorem SearchOp.exec_sFail (hop : SearchOp i stay State.reportSearch) (hs : s.ctl.fsm = stay .sFail) :
    exec i s = .next (s.searchFail.finish .exhausted) := hop hs

end

theorem searchOp_first (a : Byte) : SearchOp (.searchFirst a) .searchFirst State.reportSearch := by
  intro s p hs
  simp only [exec, execSearchFirst, hs, State.callSearch]
  rcases searchPoint p s with ⟨t, q | r⟩ <;> rfl

theorem searchOp_next (a : Byte) : SearchOp (.searchNext a) .searchNext State.reportSearch := by
  intro s p hs
  simp only [exec, execSearchNext, hs, State.callSearch]
  rcases searchPoint p s with ⟨t, q | r⟩ <;> rfl

theorem searchOp_enumerate (a : Byte) {stay : SearchPt → EnumPt} (hstay : stay = .eFirst ∨ stay = .eNext) :
    SearchOp (.enumerate a) (fun p => .enumerate (stay p)) (fun t r => t.goto (.enumerate (enumAfter r))) := by
  intro s p hs
  obtain rfl | rfl := hstay
  all_goals
    simp only [exec, execEnumerate, hs]
    rcases searchPoint p s with ⟨t, q | r⟩ <;> rfl

/-- Settles O28: the three operations are each a `SearchOp`. -/
theorem searchOperationsRunTheStep : Obligations.SearchOperationsRunTheStep := by
  intro a s s' p q id fin moved
  have hfirst := searchOp_first a
  have hnext := searchOp_next a
  have heFirst := searchOp_enumerate a (stay := .eFirst) (.inl rfl)
  have heNext := searchOp_enumerate a (stay := .eNext) (.inr rfl)
  refine ⟨fun h => ?_, fun h => ?_, fun h => ?_, fun hs => ?_⟩
  · exact ⟨hfirst.moves h, hnext.moves h, heFirst.moves h, heNext.moves h⟩
  · exact ⟨hfirst.returns h, hnext.returns h, heFirst.returns h, heNext.returns h⟩
  · exact ⟨hfirst.returns h, hnext.returns h, heFirst.returns h, heNext.returns h⟩
  · simp only [exec, execEnumerate, hs]
    rfl

/-- Settles O29: the exits as the two entry points report them, and the points at which the step leaves its calls. -/
theorem searchStepExits : Obligations.SearchStepExits := by
  intro a s
  have hfirst := searchOp_first a
  have hnext := searchOp_next a
  exact ⟨hfirst.exec_sReg, hnext.exec_sReg, hfirst.exec_sFound, hnext.exec_sFound, hfirst.exec_sFail,
    hnext.exec_sFail, rfl, rfl, rfl, rfl, rfl, rfl, rfl, rfl, rfl, rfl, rfl, rfl, rfl⟩

/-! ### `next()` after the last device (R184) -/

theorem searchCaller_next : SearchCaller .searchNext State.reportSearch := by
  refine .of_exec (op := .searchNext) (fun _ _ => rfl) (fun _ _ => rfl) fun a s p => ?_
  rw [searchOp_next a (s := s.goto _) (p := p) rfl, searchPoint_goto]
  rcases searchPoint p s with ⟨t, q | id | _⟩ <;> rfl

theorem goto_of_fsm {s : State} {f : Fsm} (h : s.ctl.fsm = f) : s.goto f = s := by
  subst h
  rfl

/-- DISPATCH enters a search step on the Search State as it stands (R181). -/
theorem next_searchNext {s : State} {a : Byte} (hs : s.Dispatching (.searchNext a)) :
    Next s (s.enter a (.searchNext .sFresh)) := by
  rw [Next, step_of_dispatching hs]
  simp only [exec, execSearchNext, hs.1]

/-- Settles O38: the search step goes from its entry to the failure exit, which the operation reports. -/
theorem nextAfterLastDevice : Obligations.NextAfterLastDevice := by
  refine ⟨fun a s hs hflag => ?_, fun s hs hflag => ?_⟩
  · have hstep := searchCaller_next.runs (search_exhausts (s := s.enter a (.searchNext .sFresh)) hflag)
    exact ⟨_, reaches_retire_of_steps (.head (next_searchNext hs) hstep) rfl, rfl, rfl, rfl, rfl, rfl, rfl, rfl⟩
  · have hstep := (searchCaller_enumerate (.inr rfl)).runs (search_exhausts hflag)
    rw [goto_of_fsm hs] at hstep
    exact ⟨_, reaches_retire_of_steps (hstep.tail (next_eDone s.searchFail)) rfl, rfl, rfl, rfl, rfl, rfl, rfl, rfl⟩

end Sys2Proof.Machine
end

/-! ## The registry: appends and lookups (R220, R222) -/

section
namespace Sys2Proof.Machine

/-- Settles O43 by the laws of the count and of the slots after an append, `Config.regN` being 16. -/
theorem appendFillsTheNextSlot : Obligations.AppendFillsTheNextSlot := by
  refine ⟨fun r id hroom => ⟨Registry.append_count hroom id, ?_, fun i hi => ?_⟩,
    fun r id hfull => Registry.append_of_full hfull id⟩
  · rw [Registry.append_slot hroom, if_pos rfl]
  · rw [Registry.append_slot hroom, if_neg hi]

/-! ### The search for a slot -/

theorem Registry.find_eq_some_iff {r : Registry} {id : RomId} {i : Nat} :
    r.find id = some i ↔ i < r.count.toNat ∧ r.slot i = id ∧ ∀ j < i, r.slot j ≠ id := by
  simp [Registry.find, List.find?_range_eq_some, and_left_comm]

theorem Registry.find_eq_none_iff {r : Registry} {id : RomId} :
    r.find id = none ↔ ∀ i < r.count.toNat, r.slot i ≠ id := by
  simp [Registry.find]

/-! ### `REG_LOOKUP` (R222) -/

section
variable {a : Byte} {s : State}

theorem execRegLookup_found {i : Nat} (h : s.ctl.fsm = .regLookup .gScan) (hfind : s.registry.find s.ctl.argId = some i) :
    exec (.regLookup a) s = .next ((s.setResCount (BitVec.ofNat 5 i)).finish .found) := by
  simp only [exec, execRegLookup, h, hfind]

theorem execRegLookup_missing (h : s.ctl.fsm = .regLookup .gScan) (hfind : s.registry.find s.ctl.argId = none) :
    exec (.regLookup a) s = .next (s.goto (.regLookup .gDone)) := by
  simp only [exec, execRegLookup, h, hfind]

theorem execRegLookup_done (h : s.ctl.fsm = .regLookup .gDone) : exec (.regLookup a) s = .next (s.finish .notFound) := by
  simp only [exec, execRegLookup, h]

theorem step_regLookup {p : ScanPt} (h : s.ctl.fsm = .regLookup p) : step s = exec (.regLookup s.ctl.arg) s :=
  step_of_fetched (fetched_running (by rw [Control.issuing, h]) (by rw [Control.running, h]))

/-- An identifier the registry does not hold: `G_SCAN`, `G_DONE` and COMPLETE, with `RES_CODE` alone written. -/
theorem lookup_runs_notFound (hs : s.Dispatching (.regLookup a)) (hfind : s.registry.find s.ctl.argId = none) :
    ∃ t, Reaches s t ∧ t.ctl.fsm = .idle ∧ t.port = { s.port with resCode := .notFound } ∧ s.SameStore t ∧
      t.link = s.link := by
  let t₁ := s.enter a (.regLookup .gScan)
  let t₂ := t₁.goto (.regLookup .gDone)
  have hentered : step s = .next t₁ := by
    rw [step_of_dispatching hs]
    simp only [exec, execRegLookup, hs.1]
    rfl
  have hscanned : step t₁ = .next t₂ := (step_regLookup rfl).trans (execRegLookup_missing rfl hfind)
  have hdone : step t₂ = .next (t₂.finish .notFound) := (step_regLookup rfl).trans (execRegLookup_done rfl)
  exact ⟨(t₂.finish .notFound).retire, .head hentered (.head hscanned (.head hdone (reaches_retire rfl))), rfl, rfl,
    ⟨rfl, rfl, rfl, rfl⟩, rfl⟩

end

/-- In canonical form no occupied slot holds identifier 0 (R29). -/
theorem Registry.find_zero {r : Registry} (h : r.wf) : r.find 0 = none := by
  obtain ⟨_, hused, _⟩ := h
  exact Registry.find_eq_none_iff.2 hused

/-- Settles O44: the two outcomes of the search for a slot, and the run of an operation that finds none. -/
theorem lookupFindsTheLowestSlot : Obligations.LookupFindsTheLowestSlot := by
  refine ⟨fun a s i hs hi hslot hlowest => ?_, fun a s hs hmissing => ?_, fun a s hs => execRegLookup_done hs,
    fun a s hs hmissing => ?_, fun a s hs hwf hzero => ?_⟩
  · exact execRegLookup_found hs (Registry.find_eq_some_iff.2 ⟨hi, hslot, hlowest⟩)
  · exact execRegLookup_missing hs (Registry.find_eq_none_iff.2 hmissing)
  · exact lookup_runs_notFound hs (Registry.find_eq_none_iff.2 hmissing)
  · exact lookup_runs_notFound hs (hzero ▸ Registry.find_zero hwf)

end Sys2Proof.Machine
end

section
/-! ## Power-on values (R270, R271) -/

namespace Sys2Proof.Machine

/-- Every byte of the cleared buffer is 0, beyond its end by `romByte`'s default. -/
theorem romByte_replicate_zero (i : Nat) : romByte (Vector.replicate 8 0) i = 0 := by
  rw [romByte, Vector.getElem?_replicate]
  split <;> rfl

/-- Settles O56: the buffer and the slots read 0 at every index, and the other fields are `State.reset`'s own. -/
theorem powerOnValues : Obligations.PowerOnValues :=
  ⟨romByte_replicate_zero, rfl, State.reset.registry.clear_slot, rfl, rfl, rfl, rfl, rfl, rfl⟩

end Sys2Proof.Machine
end
